-- ==== Sys2Proof/Word.lean ====
section
/-! DEFINITION. The word types of 00_scope.md rules R6 and R8 and the 256-entry table of bytes (10_state.md
rules R21, R25, R26). All values are unsigned; arithmetic on a `Byte` is modulo 256 (00_scope.md rule R9). -/

namespace Sys2Proof

/-- u8: a permutation entry, a cursor, a key code, an entry index (00_scope.md R6, R8). -/
abbrev Byte := BitVec 8

/-- u9: a key length (10_state.md R25, R26) and the operand of SETLEN (30_encoding.md R83). -/
abbrev U9 := BitVec 9

/-- u16: a process unit and RESULT, `UNIT_W` = 16 (00_scope.md R6, R7). -/
abbrev U16 := BitVec 16

/-- u32: a command word and a register of the window (30_encoding.md R80, 10_state.md R33). -/
abbrev Word := BitVec 32

/-- 256 entries of 8 bits, indexed 0..255: the shape of `S`, `K` and `KB` (20_memory.md R50). -/
abbrev Table := Vector Byte 256

end Sys2Proof
end

