-- ==== Sys2Proof/Syntax.lean ====
section
/-! DEFINITION. The nine commands of SCE-1 (30_encoding.md rules R81, R82), the named registers of the window
(10_state.md rule R33), and the assembler's statements and pseudo-instructions (30_encoding.md rules R87, R88). -/

namespace Sys2Proof

/-- One SCE-1 command, one constructor per row of the opcode table. Every operand has exactly the width of its
field (30_encoding.md R81, R83), so every term is an instruction that can be encoded. -/
inductive Instr
  /-- SETLEN `len`, format L (40_initialize.md R100). -/
  | setlen (len : U9)
  /-- KEYWR `idx, byte`, format B (40_initialize.md R101). -/
  | keywr (idx byte : Byte)
  /-- INIT, format N (40_initialize.md R103). -/
  | init
  /-- NEXT, format N (41_keystream.md R131). -/
  | next
  /-- PROC `unit`, format U (41_keystream.md R132). -/
  | proc (unit : U16)
  /-- RESET, format N (42_reset.md R160). -/
  | reset
  /-- KEYRD `idx`, format X (43_inspect_control.md R170). -/
  | keyrd (idx : Byte)
  /-- SRD `idx`, format X (43_inspect_control.md R171). -/
  | srd (idx : Byte)
  /-- CLRERR, format N (43_inspect_control.md R172). -/
  | clrerr
deriving DecidableEq, Repr

/-- The registers an assembler access names (30_encoding.md R87). -/
inductive Reg
  | cmd
  | status
  | result
  | keylen
  | cursor
deriving DecidableEq, Repr

/-- One assembler statement (30_encoding.md R87). Operands are the numbers as written; their ranges are an
assembly-time check (`Stmt.wf`). -/
inductive Stmt
  | setlen (n : Nat)
  | keywr (idx byte : Nat)
  | init
  | next
  | proc (unit : Nat)
  | reset
  | keyrd (idx : Nat)
  | srd (idx : Nat)
  | clrerr
  /-- `RD reg`: a read of the register. -/
  | rd (r : Reg)
  /-- `WR reg, n`: a write of the register. -/
  | wr (r : Reg) (n : Nat)
deriving DecidableEq, Repr

/-- One pseudo-instruction (30_encoding.md R88). A key or a unit sequence is given by its codes. -/
inductive Pseudo
  | loadkey (codes : List Nat)
  | newkey (codes : List Nat)
  | process (units : List Nat)
  | keystream (n : Nat)
  /-- The host loop GETKEY, for the key length its `RD KEYLEN` returned. -/
  | getkey (kl : Nat)
  | dumps
deriving DecidableEq, Repr

end Sys2Proof
end

