-- ==== Sys2Proof/WellFormed.lean ====
section
/-! DEFINITION. Which assembler statements are well formed (30_encoding.md rules R87, R88): an operand outside its
field's range is an assembly error and no word is emitted. An `Instr` needs no check of its own: its operands have
the widths of their fields, and it is what a well-formed command statement denotes (`Stmt.toInstr`). -/

namespace Sys2Proof

/-- 30_encoding.md R87: "An operand outside its field's range (len > 511, idx > 255, byte > 255, unit > 65535) is an
assembly error". The data of a `WR` is one 32-bit word. -/
def Stmt.wf : Stmt → Bool
  | .setlen n => n ≤ 511
  | .keywr idx byte => idx ≤ 255 && byte ≤ 255
  | .proc unit => unit ≤ 65535
  | .keyrd idx => idx ≤ 255
  | .srd idx => idx ≤ 255
  | .wr _ n => n < 2 ^ 32
  | .init | .next | .reset | .clrerr | .rd _ => true

/-- 30_encoding.md R88: a key has 1 to 256 codes of 8 bits; units have 16 bits; GETKEY reads the indices below the
committed length, 0..256. -/
def Pseudo.wf : Pseudo → Bool
  | .loadkey codes => 1 ≤ codes.length && codes.length ≤ 256 && codes.all (· ≤ 255)
  | .newkey codes => 1 ≤ codes.length && codes.length ≤ 256 && codes.all (· ≤ 255)
  | .process units => units.all (· ≤ 65535)
  | .getkey kl => kl ≤ 256
  | .keystream _ | .dumps => true

/-- The command a statement stands for (30_encoding.md R87), none where it is ill formed or is an access. -/
def Stmt.toInstr (s : Stmt) : Option Instr :=
  if s.wf then
    match s with
    | .setlen n => some (.setlen (BitVec.ofNat 9 n))
    | .keywr idx byte => some (.keywr (BitVec.ofNat 8 idx) (BitVec.ofNat 8 byte))
    | .init => some .init
    | .next => some .next
    | .proc unit => some (.proc (BitVec.ofNat 16 unit))
    | .reset => some .reset
    | .keyrd idx => some (.keyrd (BitVec.ofNat 8 idx))
    | .srd idx => some (.srd (BitVec.ofNat 8 idx))
    | .clrerr => some .clrerr
    | .rd _ | .wr _ _ => none
  else none

end Sys2Proof
end

