-- ==== Sys2Proof/Decode.lean ====
section
/-! DEFINITION. The command word (30_encoding.md rules R80 to R86): its fields, the byte lanes it travels in
(20_memory.md rule R53), the decoder (rule R84), the match and mask table (rule R82), and the encoder. -/

namespace Sys2Proof

/-- OP, bits [31:24] (30_encoding.md R80). -/
def opField (w : Word) : Byte := w.extractLsb' 24 8

/-- IDX, bits [23:16] (30_encoding.md R80). -/
def idxField (w : Word) : Byte := w.extractLsb' 16 8

/-- DATA, bits [15:0] (30_encoding.md R80). -/
def dataField (w : Word) : U16 := w.extractLsb' 0 16

/-- `len = DATA[8:0]` (30_encoding.md R81, R83). -/
def lenOperand (data : U16) : U9 := data.extractLsb' 0 9

/-- `byte = DATA[7:0]` (30_encoding.md R81, R83). -/
def byteOperand (data : U16) : Byte := data.extractLsb' 0 8

/-- Why a word is illegal (30_encoding.md R85). Both raise IllegalCommand (60_exceptions.md R204). -/
inductive Illegal
  /-- An OP of no row of the opcode map, 0x00 among them. -/
  | reservedOp (op : Byte)
  /-- A legal OP with a non-zero bit in a must-be-zero field. -/
  | strayBits (op : Byte)
deriving DecidableEq, Repr

/-- `i` where the must-be-zero bits are zero, else the stray-bit rejection (30_encoding.md R84, R85). -/
def acceptIf (zero : Bool) (op : Byte) (i : Instr) : Except Illegal Instr :=
  if zero then .ok i else .error (.strayBits op)

/-- The decoder, total on all 2^32 words (30_encoding.md R84). -/
def decode (w : Word) : Except Illegal Instr :=
  let op := opField w
  let idx := idxField w
  let data := dataField w
  match op.toNat with
  | 0x01 => acceptIf (idx == 0 && data.extractLsb' 9 7 == 0) op (.setlen (lenOperand data))
  | 0x02 => acceptIf (data.extractLsb' 8 8 == 0) op (.keywr idx (byteOperand data))
  | 0x03 => acceptIf (idx == 0 && data == 0) op .init
  | 0x04 => acceptIf (idx == 0 && data == 0) op .next
  | 0x05 => acceptIf (idx == 0) op (.proc data)
  | 0x06 => acceptIf (idx == 0 && data == 0) op .reset
  | 0x07 => acceptIf (data == 0) op (.keyrd idx)
  | 0x08 => acceptIf (data == 0) op (.srd idx)
  | 0x09 => acceptIf (idx == 0 && data == 0) op .clrerr
  | _ => .error (.reservedOp op)

/-- A word from its three fields (30_encoding.md R80). -/
def packWord (op idx : Byte) (data : U16) : Word := op ++ idx ++ data

/-- The word of a command, from the layouts of 30_encoding.md R81 and the opcodes of R82. -/
def encode : Instr → Word
  | .setlen len => packWord 0x01 0 (len.setWidth 16)
  | .keywr idx byte => packWord 0x02 idx (byte.setWidth 16)
  | .init => packWord 0x03 0 0
  | .next => packWord 0x04 0 0
  | .proc unit => packWord 0x05 0 unit
  | .reset => packWord 0x06 0 0
  | .keyrd idx => packWord 0x07 idx 0
  | .srd idx => packWord 0x08 idx 0
  | .clrerr => packWord 0x09 0 0

/-- One row of the match and mask table of 30_encoding.md R82. -/
structure OpcodeRow where
  /-- The bits a word of the row has under the mask. -/
  pattern : Word
  /-- The fixed bits of the row. -/
  mask : Word
deriving DecidableEq, Repr

/-- "A word selects mnemonic m exactly when (w & mask_m) = match_m" (30_encoding.md R82). -/
def OpcodeRow.selects (r : OpcodeRow) (w : Word) : Bool := w &&& r.mask == r.pattern

/-- The row of the opcode table a command belongs to (30_encoding.md R82, match and mask values). -/
def Instr.row : Instr → OpcodeRow
  | .setlen _ => ⟨0x01000000, 0xFFFFFE00⟩
  | .keywr _ _ => ⟨0x02000000, 0xFF00FF00⟩
  | .init => ⟨0x03000000, 0xFFFFFFFF⟩
  | .next => ⟨0x04000000, 0xFFFFFFFF⟩
  | .proc _ => ⟨0x05000000, 0xFFFF0000⟩
  | .reset => ⟨0x06000000, 0xFFFFFFFF⟩
  | .keyrd _ => ⟨0x07000000, 0xFF00FFFF⟩
  | .srd _ => ⟨0x08000000, 0xFF00FFFF⟩
  | .clrerr => ⟨0x09000000, 0xFFFFFFFF⟩

/-- All nine rows, in the table's order (30_encoding.md R82). -/
def opcodeRows : List OpcodeRow :=
  [Instr.row (.setlen 0), Instr.row (.keywr 0 0), Instr.row .init, Instr.row .next, Instr.row (.proc 0),
    Instr.row .reset, Instr.row (.keyrd 0), Instr.row (.srd 0), Instr.row .clrerr]

/-- The byte lanes of a word, lowest address first: little-endian (20_memory.md R53). -/
def lanesOfWord (w : Word) : List Byte :=
  [w.extractLsb' 0 8, w.extractLsb' 8 8, w.extractLsb' 16 8, w.extractLsb' 24 8]

/-- The word four byte lanes carry, lowest address first: "The byte at BASE+off carries bits [7:0] and the byte at
BASE+off+3 carries bits [31:24]" (20_memory.md R53). -/
def wordOfLanes : List Byte → Word
  | [] => 0
  | b :: bs => b.setWidth 32 ||| (wordOfLanes bs <<< 8)

/-- The decoder on the bytes of a command as they lie on the bus; a command is four bytes (30_encoding.md R80). -/
def decodeLanes (lanes : List Byte) : Option Instr :=
  if lanes.length = 4 then (decode (wordOfLanes lanes)).toOption else none

/-- The word whose low `nbits` bits are those of `w` and whose other bits are 0. -/
def tableWord (nbits w : Nat) : Word := BitVec.ofNat 32 (w % 2 ^ nbits)

/-- What the decoder reads from a word given as the opcode table numbers its bits: laid out in byte lanes and read
back from them. -/
def decodeTableWord (nbits w : Nat) : Option Instr := decodeLanes (lanesOfWord (tableWord nbits w))

end Sys2Proof
end

