-- ==== Sys2Proof/Config.lean ====
section
/-! DEFINITION. What is fixed for one block: the parameters of 00_scope.md rule R6, and the free values of the
points the spec leaves open (93_implementation_defined.md U7; 40_initialize.md R104). -/

namespace Sys2Proof

/-- The OPEN parameters of 00_scope.md R6 ("a named argument of the model"). State holds them as data no step
changes, so a statement about every state is a statement for every value of them. -/
structure Params where
  /-- BASE, the address of the register window (R6, R33); `Params.wf` says it is a multiple of 32. -/
  base : Nat
  /-- N_HOSTS, the bus masters that can reach the window (R6, R59). -/
  nHosts : Nat
  /-- T_KSA, the latency of INIT and RESET: informative, no rule depends on it (R6, 70_reset_and_hazards.md R243). -/
  tKsa : Nat
  /-- T_STEP, the latency of NEXT and PROC: informative, no rule depends on it (R6, R243). -/
  tStep : Nat
deriving DecidableEq, Repr

/-- 00_scope.md R6: BASE is a multiple of 32 and N_HOSTS is at least 1. -/
def Params.wf (p : Params) : Bool := p.base % 32 == 0 && 1 ≤ p.nHosts

namespace Config

/-- `KEY_MAX` (00_scope.md R6; 92_eei_decisions.md D8). -/
def keyMax : Nat := 256

/-- The size of the register window in bytes (00_scope.md R6, 10_state.md R33). -/
def windowBytes : Nat := 32

/-- FREE VALUE: entry `n` of `S` after the `d`-th power-on reset (10_state.md R42 "unspecified"; U7; log entry 3). -/
opaque porPermutation (d : Nat) (n : Byte) : Byte

/-- FREE VALUE: entry `n` of `K` after the `d`-th power-on reset (10_state.md R42 "unspecified"; U7; log entry 3). -/
opaque porKey (d : Nat) (n : Byte) : Byte

/-- FREE VALUE: the key code the schedule would use at iteration `i` for a key of length 0. The hardware never
computes `i mod 0` (40_initialize.md R104), and no reachable state gets here (10_state.md R40; log entry 10). -/
opaque keyCodeByZero (i : Nat) : Byte

end Config

end Sys2Proof
end

