-- ==== Sys2Proof/Machine/State.lean ====
section
/-! DEFINITION. The state of the engine, exactly the items of 10_state.md rule R20; the events that reach its bus
port (20_memory.md rules R52, R57; 70_reset_and_hazards.md rules R230, R231, R240) and the answers they get; the
machine's State; Fault and Refusal; and the state right after power-on reset (10_state.md rule R42). -/

namespace Sys2Proof.Machine

/-- `MODE` (10_state.md R27). -/
inductive Mode
  /-- UNINIT, bit value 0. -/
  | uninit
  /-- KEYED, bit value 1. -/
  | keyed
deriving DecidableEq, Repr

/-- The generator state `(S, I, J)` a keystream step works on (10_state.md R21, R23, R24; 41_keystream.md R130). -/
structure Generator where
  /-- `S[0..255]`, the permutation table (R21). -/
  S : Table
  /-- `I`, cursor_i (R23). -/
  I : Byte
  /-- `J`, cursor_j (R24). -/
  J : Byte
deriving DecidableEq, Repr

/-- The architectural state of the engine: the items of 10_state.md R20 "and nothing else". -/
structure Engine extends Generator where
  /-- `K[0..255]`, the committed key codes (R25). -/
  K : Table
  /-- `KL`, the committed key length (R25). -/
  KL : U9
  /-- `KB[0..255]`, the staging key codes (R26). -/
  KB : Table
  /-- `KBL`, the staging key length (R26). -/
  KBL : U9
  /-- `MODE` (R27). -/
  MODE : Mode
  /-- `ERR`, the sticky error code (R28). -/
  ERR : BitVec 4
  /-- `RESULT` (R29). -/
  RESULT : U16
deriving DecidableEq, Repr

/-- One host bus access (00_scope.md R10, R11). Its width in bytes is the length of `lanes` for a write; the lanes
stand lowest address first (20_memory.md R53). -/
inductive Access
  /-- `MemRead(addr, n)`. -/
  | read (addr n : Nat)
  /-- `MemWrite(addr, n, v)` with `v` in byte lanes. -/
  | write (addr : Nat) (lanes : List Byte)
deriving DecidableEq, Repr

/-- One thing that happens at the engine's port, between whole commands (20_memory.md R56, R57). -/
inductive Event
  /-- A host's access is served (20_memory.md R52). -/
  | access (host : Nat) (a : Access)
  /-- A host's CMD write of `w` is executed but the platform ended the host's access early (70_reset_and_hazards.md R240). -/
  | timedOutCommand (host : Nat) (w : Word)
  /-- Power-on reset is asserted while the command of a host's CMD write of `w` runs (70_reset_and_hazards.md R231). DESIGN
  CHOICE: of the accesses in flight only that write is lost (log entry 16). -/
  | resetDuringCommand (host : Nat) (w : Word)
  /-- Power-on reset is asserted and released between accesses (70_reset_and_hazards.md R230). -/
  | powerOnReset
deriving DecidableEq, Repr

/-- What a host's access was answered with (00_scope.md R12's observation). -/
inductive Answer
  /-- An admitted read: the register's word (20_memory.md R65). -/
  | data (v : Word)
  /-- An admitted write, acknowledged after its effects (20_memory.md R57, R66). -/
  | written
  /-- The bus error response; a read that gets it returns no data (20_memory.md R52). -/
  | busError
  /-- The address is outside the window: the engine gives no answer, the platform does (20_memory.md R51). -/
  | notDecoded
  /-- The command was abandoned by a power-on reset; how the write ends is the platform's concern (R231). -/
  | abandoned
  /-- The platform ended the access early; what the host saw is the platform's (R240). -/
  | timedOut
deriving DecidableEq, Repr

/-- One answer and the host it went to. -/
structure Response where
  host : Nat
  answer : Answer
deriving DecidableEq, Repr

/-- The machine: the engine, and the model's own record of the outside world. -/
structure State where
  /-- The engine's architectural state (10_state.md R20). -/
  engine : Engine
  /-- The OPEN parameters of 00_scope.md R6; no step changes them. -/
  params : Params
  /-- The events not yet served, in the order they reach the port (20_memory.md R57). -/
  port : List Event
  /-- The answers given so far, oldest first (00_scope.md R12). -/
  responses : List Response
  /-- How many power-on resets have happened: it selects the free values of the next one (log entry 3). -/
  porDraws : Nat
deriving DecidableEq, Repr

/-- Why the machine stops with a fault. -/
inductive Fault
  /-- Raised by `step` when the head event names a host the block does not have (`N_HOSTS`, 00_scope.md R12). Safe: no
  run of the spec holds such an event. -/
  | noSuchHost (host : Nat)
deriving DecidableEq, Repr

/-- Why an instruction has no meaning. -/
inductive Refusal
  /-- Raised by an arm of `exec` that has no meaning yet. Safe: nothing is claimed of the instruction. -/
  | notModelled (mnemonic : String)
deriving DecidableEq, Repr

/-- The engine after power-on reset, for given contents of `S` and `K`, the two items 10_state.md R42 leaves
unspecified. -/
def Engine.afterPor (S K : Table) : Engine :=
  { S := S, I := 0, J := 0, K := K, KL := 0, KB := Vector.replicate 256 0, KBL := 0, MODE := .uninit, ERR := 0,
    RESULT := 0 }

/-- The machine right after reset (10_state.md R42, 70_reset_and_hazards.md R230), nothing waiting at the port.
DESIGN CHOICE: zero for the unspecified `S` and `K` (log entry 2); BASE 0 and one host (log entry 1). -/
def State.reset : State :=
  { engine := Engine.afterPor (Vector.replicate 256 0) (Vector.replicate 256 0)
    params := { base := 0, nHosts := 1, tKsa := 0, tStep := 0 }
    port := [], responses := [], porDraws := 0 }

end Sys2Proof.Machine
end

