-- ==== Sys2Proof/Machine/Flags.lean ====
section
/-! DEFINITION. The engine has no arithmetic flags (10_state.md rule R32). Its only status is MODE and the sticky
error code (60_exceptions.md rules R201, R208, R209), read together through STATUS (10_state.md rule R35). -/

namespace Sys2Proof.Machine

/-- The errors a command can raise (60_exceptions.md R201). -/
inductive CommandError
  /-- INIT with staging length 0 (R202). -/
  | invalidKey
  /-- A command that needs a key while UNINIT (R203). -/
  | notKeyed
  /-- A word that decodes to Illegal (R204). -/
  | illegalCommand
  /-- SETLEN with len > 256 (R205). -/
  | keyTooLong
deriving DecidableEq, Repr

/-- The code of an error (60_exceptions.md R201). -/
def CommandError.code : CommandError → BitVec 4
  | .invalidKey => 1
  | .notKeyed => 2
  | .illegalCommand => 3
  | .keyTooLong => 4

/-- `if ERR = 0: ERR <- c`, the sticky first error (60_exceptions.md R208). -/
def recordError (err code : BitVec 4) : BitVec 4 := if err = 0 then code else err

/-- `STATUS.KEYED` (10_state.md R35). -/
def Mode.bit : Mode → Word
  | .uninit => 0
  | .keyed => 1

/-- `(zext_32(ERR) << 4) | MODE` (20_memory.md R65). -/
def statusWord (e : Engine) : Word := (e.ERR.setWidth 32 <<< 4) ||| e.MODE.bit

end Sys2Proof.Machine
end

