-- ==== Sys2Proof/Machine/Table.lean ====
section
/-! DEFINITION. The internal arrays `S`, `K` and `KB`, read and written one whole entry at a time by an index that
is always in 0..255 (20_memory.md rule R64). -/

namespace Sys2Proof.Machine

/-- `t[i]` (00_scope.md R10, 20_memory.md R64). -/
def readEntry (t : Table) (i : Byte) : Byte := t[i.toNat]'i.isLt

/-- `t[i] <- v` (00_scope.md R10, 20_memory.md R64). -/
def writeEntry (t : Table) (i v : Byte) : Table := t.set i.toNat v i.isLt

/-- `swap(a, b)` (00_scope.md R10): `tmp <- S[a]; S[a] <- S[b]; S[b] <- tmp`. -/
def swapEntries (t : Table) (a b : Byte) : Table :=
  writeEntry (writeEntry t a (readEntry t b)) b (readEntry t a)

/-- The table whose entry `n` is `f n`. -/
def tableOf (f : Byte → Byte) : Table :=
  ⟨((List.range 256).map fun n => f (BitVec.ofNat 8 n)).toArray, by simp⟩

/-- `S[n] <- n` for n in 0..255 (40_initialize.md R102, step 1). -/
def identityTable : Table := tableOf fun n => n

/-- "for all n, exactly one index holds value n" (10_state.md R22). -/
def IsPermutation (t : Table) : Prop := ∀ v : Byte, ∃! i : Byte, readEntry t i = v

end Sys2Proof.Machine
end

