-- ==== Sys2Proof/Machine/Operands.lean ====
section
/-! DEFINITION. The operands of the commands: zero extension (00_scope.md rule R8), the key code the schedule uses
at an iteration (40_initialize.md rule R102), and the key code KEYRD shows (43_inspect_control.md rule R170). The
operand fields of a word are in Decode.lean. -/

namespace Sys2Proof.Machine

/-- `zext_16(b)` (00_scope.md R8). -/
def zext16 (b : Byte) : U16 := b.setWidth 16

/-- `E[i] = K[i mod L]` (40_initialize.md R102), for `1 ≤ L ≤ 256`. `i mod 0` is never computed (R104): the code for
length 0 is a free value (log entry 10). -/
def extendedKey (K : Table) (L : U9) (i : Nat) : Byte :=
  if L = 0 then Config.keyCodeByZero i else readEntry K (BitVec.ofNat 8 (i % L.toNat))

/-- `K[idx]` below the committed length and 0 from there on (43_inspect_control.md R170). -/
def shownKeyCode (K : Table) (KL : U9) (idx : Byte) : Byte :=
  if idx.toNat < KL.toNat then readEntry K idx else 0

/-- `len > 256` (40_initialize.md R100, `KEY_MAX`). -/
def lengthTooLong (len : U9) : Bool := Config.keyMax < len.toNat

end Sys2Proof.Machine
end

