-- ==== Sys2Proof/Machine/Ops.lean ====
section
/-! DEFINITION. The shared operations: updates of the engine and the machine, raising a command error and clearing it
(60_exceptions.md rules R207 to R209), the mode check (rule R203), the key schedule (40_initialize.md rule R102), the
keystream step and its inverse (41_keystream.md rule R130, 42_reset.md rule R161), and power-on reset
(70_reset_and_hazards.md rule R230). -/

namespace Sys2Proof.Machine

/-! ### Updates -/

/-- Replace the generator state `(S, I, J)`. -/
def Engine.setGenerator (e : Engine) (g : Generator) : Engine := { e with toGenerator := g }

/-- Write the committed key. -/
def Engine.setKey (e : Engine) (K : Table) (KL : U9) : Engine := { e with K := K, KL := KL }

/-- Write the staging key codes. -/
def Engine.setKB (e : Engine) (KB : Table) : Engine := { e with KB := KB }

/-- Write the staging key length. -/
def Engine.setKBL (e : Engine) (KBL : U9) : Engine := { e with KBL := KBL }

/-- Write MODE. -/
def Engine.setMODE (e : Engine) (m : Mode) : Engine := { e with MODE := m }

/-- Write ERR. -/
def Engine.setERR (e : Engine) (c : BitVec 4) : Engine := { e with ERR := c }

/-- Write RESULT. -/
def Engine.setRESULT (e : Engine) (v : U16) : Engine := { e with RESULT := v }

/-- Replace the engine. -/
def State.setEngine (s : State) (e : Engine) : State := { s with engine := e }

/-- Replace the waiting events. -/
def State.setPort (s : State) (p : List Event) : State := { s with port := p }

/-- Record the answer a host's access got. -/
def State.respond (s : State) (host : Nat) (a : Answer) : State :=
  { s with responses := s.responses ++ [{ host := host, answer := a }] }

/-! ### Errors: the nearest thing to taking an exception and returning from one (60_exceptions.md R200, R215) -/

/-- `raise E`: the command ends, and the only state it changes is ERR (60_exceptions.md R207, R208). -/
def raise (err : CommandError) (s : State) : Host.Outcome State Fault Refusal :=
  .next (s.setEngine (s.engine.setERR (recordError s.engine.ERR err.code)))

/-- `ERR <- 0` (60_exceptions.md R209). -/
def clearError (s : State) : Host.Outcome State Fault Refusal := .next (s.setEngine (s.engine.setERR 0))

/-- `if MODE != KEYED: raise NotKeyed`, else the command's effect on the engine (60_exceptions.md R203, R206). -/
def whenKeyed (effect : Engine → Engine) (s : State) : Host.Outcome State Fault Refusal :=
  match s.engine.MODE with
  | .uninit => raise .notKeyed s
  | .keyed => .next (s.setEngine (effect s.engine))

/-! ### The key schedule -/

/-- One iteration of step 2 (40_initialize.md R102): `j <- (j + S[i] + E[i]) mod 256; swap(i, j)`, on the table and
the internal accumulator (10_state.md R30). -/
def scheduleIteration (E : Nat → Byte) (p : Table × Byte) (i : Nat) : Table × Byte :=
  let j := p.2 + readEntry p.1 (BitVec.ofNat 8 i) + E i
  (swapEntries p.1 (BitVec.ofNat 8 i) j, j)

/-- The table and the accumulator after the first `n` iterations, from the identity and 0 (40_initialize.md R102). -/
def scheduleRun (E : Nat → Byte) (n : Nat) : Table × Byte :=
  (List.range n).foldl (scheduleIteration E) (identityTable, 0)

/-- `KSA(K, L)` (40_initialize.md R102): 256 iterations in increasing order, the accumulator discarded, `I` and `J`
zero. -/
def keySchedule (K : Table) (L : U9) : Generator :=
  { S := (scheduleRun (extendedKey K L) 256).1, I := 0, J := 0 }

/-- INIT's effect (40_initialize.md R103): commit the staging key, run the key schedule on it, `MODE <- KEYED`. -/
def Engine.construct (e : Engine) : Engine :=
  ((e.setKey e.KB e.KBL).setGenerator (keySchedule e.KB e.KBL)).setMODE .keyed

/-- RESET's effect (42_reset.md R160): the key schedule of the committed key. -/
def Engine.rekey (e : Engine) : Engine := e.setGenerator (keySchedule e.K e.KL)

/-! ### The keystream step -/

/-- The generator after `STEP()` (41_keystream.md R130, lines 1 to 3). -/
def Generator.step (g : Generator) : Generator :=
  let i := g.I + 1
  let j := g.J + readEntry g.S i
  { S := swapEntries g.S i j, I := i, J := j }

/-- `S[(S[I] + S[J]) mod 256]`, read after the swap (41_keystream.md R130, lines 4 and 5). -/
def Generator.output (g : Generator) : Byte :=
  readEntry g.S (readEntry g.S g.I + readEntry g.S g.J)

/-- The byte `STEP()` returns from `g`. -/
def Generator.stepByte (g : Generator) : Byte := g.step.output

/-- The generator after `n` keystream steps, `STEP^n` (10_state.md R41). -/
def Generator.steps (g : Generator) : Nat → Generator
  | 0 => g
  | n + 1 => (g.steps n).step

/-- The state before a step, recovered from the state after it (42_reset.md R161): undo the swap, `J' - S[J']`,
`I' - 1`. -/
def Generator.unstep (g : Generator) : Generator :=
  { S := swapEntries g.S g.I g.J, I := g.I - 1, J := g.J - readEntry g.S g.J }

/-- Take one step and put `combine ks` in RESULT, `ks` the byte it returned (41_keystream.md R131, R132). -/
def Engine.keystream (combine : U16 → U16) (e : Engine) : Engine :=
  (e.setGenerator e.toGenerator.step).setRESULT (combine (zext16 e.toGenerator.stepByte))

/-! ### Power-on reset -/

/-- Every state item takes its reset value (10_state.md R42, 70_reset_and_hazards.md R230); the unspecified `S` and `K`
are free values of this reset (U7, log entry 3). DESIGN CHOICE: the accesses that wait at the port stay there and are
served after the reset (log entry 16). -/
def State.powerOnReset (s : State) : State :=
  { s with
    engine := Engine.afterPor (tableOf (Config.porPermutation s.porDraws)) (tableOf (Config.porKey s.porDraws))
    porDraws := s.porDraws + 1 }

end Sys2Proof.Machine
end

