-- ==== Sys2Proof/Machine/Inspect.lean ====
section
/-! DEFINITION. Inspection and control: KEYRD, SRD, CLRERR, and a word that decodes to no command
(43_inspect_control.md). -/

namespace Sys2Proof.Machine

/-- KEYRD (43_inspect_control.md R170): `RESULT <- K[idx]`, 0 from the committed length on. -/
def execKeyrd (idx : Byte) (s : State) : Host.Outcome State Fault Refusal :=
  whenKeyed (fun e => e.setRESULT (zext16 (shownKeyCode e.K e.KL idx))) s

/-- SRD (43_inspect_control.md R171): `RESULT <- S[idx]`. -/
def execSrd (idx : Byte) (s : State) : Host.Outcome State Fault Refusal :=
  whenKeyed (fun e => e.setRESULT (zext16 (readEntry e.S idx))) s

/-- CLRERR (43_inspect_control.md R172): `ERR <- 0`. -/
def execClrerr (s : State) : Host.Outcome State Fault Refusal := clearError s

/-- An illegal command (43_inspect_control.md R173): raise IllegalCommand. -/
def execIllegal (s : State) : Host.Outcome State Fault Refusal := raise .illegalCommand s

end Sys2Proof.Machine
end

