-- ==== Sys2Proof/Machine/KeyLoading.lean ====
section
/-! DEFINITION. Key loading and initialization: SETLEN, KEYWR, INIT (40_initialize.md). -/

namespace Sys2Proof.Machine

/-- SETLEN (40_initialize.md R100): KeyTooLong above 256, else `KBL <- len`. -/
def execSetlen (len : U9) (s : State) : Host.Outcome State Fault Refusal :=
  if lengthTooLong len then raise .keyTooLong s else .next (s.setEngine (s.engine.setKBL len))

/-- KEYWR (40_initialize.md R101): `KB[idx] <- byte`. -/
def execKeywr (idx byte : Byte) (s : State) : Host.Outcome State Fault Refusal :=
  .next (s.setEngine (s.engine.setKB (writeEntry s.engine.KB idx byte)))

/-- INIT (40_initialize.md R103, R104): InvalidKey before any state changes, else construct the engine from the
staging key. -/
def execInit (s : State) : Host.Outcome State Fault Refusal :=
  if s.engine.KBL = 0 then raise .invalidKey s else .next (s.setEngine s.engine.construct)

end Sys2Proof.Machine
end

