-- ==== Sys2Proof/Machine/Keystream.lean ====
section
/-! DEFINITION. Keystream generation and processing: NEXT, PROC (41_keystream.md). -/

namespace Sys2Proof.Machine

/-- NEXT (41_keystream.md R131): `RESULT <- zext_16(STEP())`. -/
def execNext (s : State) : Host.Outcome State Fault Refusal :=
  whenKeyed (Engine.keystream fun ks => ks) s

/-- PROC (41_keystream.md R132): `RESULT <- unit ^ zext_16(STEP())`. -/
def execProc (unit : U16) (s : State) : Host.Outcome State Fault Refusal :=
  whenKeyed (Engine.keystream fun ks => unit ^^^ ks) s

end Sys2Proof.Machine
end

