-- ==== Sys2Proof/Machine/Rekey.lean ====
section
/-! DEFINITION. Re-keying from the stored key: RESET (42_reset.md). -/

namespace Sys2Proof.Machine

/-- RESET (42_reset.md R160, R162): the key schedule of the committed key. -/
def execReset (s : State) : Host.Outcome State Fault Refusal := whenKeyed Engine.rekey s

end Sys2Proof.Machine
end

