-- ==== Sys2Proof/Machine/Dispatch.lean ====
section
/-! DEFINITION. `execute(c)`: the rule of each command, by 30_encoding.md rules R82 and R84. -/

namespace Sys2Proof.Machine

def exec (i : Instr) (s : State) : Host.Outcome State Fault Refusal :=
  match i with
  | .setlen len => Sys2Proof.Machine.execSetlen len s
  | .keywr idx byte => Sys2Proof.Machine.execKeywr idx byte s
  | .init => Sys2Proof.Machine.execInit s
  | .next => Sys2Proof.Machine.execNext s
  | .proc unit => Sys2Proof.Machine.execProc unit s
  | .reset => Sys2Proof.Machine.execReset s
  | .keyrd idx => Sys2Proof.Machine.execKeyrd idx s
  | .srd idx => Sys2Proof.Machine.execSrd idx s
  | .clrerr => Sys2Proof.Machine.execClrerr s

end Sys2Proof.Machine
end

