-- ==== Sys2Proof/Machine/Bus.lean ====
section
/-! DEFINITION. The register window and the engine's bus port: address decoding and admission (20_memory.md rules R51,
R52), register reads and writes (rules R65, R66), and the service of one event (rules R56, R57;
70_reset_and_hazards.md rules R230, R231, R240). -/

namespace Sys2Proof.Machine

/-- The offset of an address in the window at `base`, none outside it (20_memory.md R51). -/
def windowOffset (base addr : Nat) : Option Nat :=
  if base ≤ addr ∧ addr < base + Config.windowBytes then some (addr - base) else none

/-- The admission test (20_memory.md R52). -/
def admitted (off n : Nat) : Bool := n == 4 && off % 4 == 0 && off ≤ 0x1C

/-- `read_reg(off)` (20_memory.md R65; 10_state.md R34 to R39). -/
def readReg (e : Engine) (off : Nat) : Word :=
  match off with
  | 0x04 => statusWord e
  | 0x08 => e.RESULT.setWidth 32
  | 0x0C => (e.KBL.setWidth 32 <<< 16) ||| e.KL.setWidth 32
  | 0x10 => (e.J.setWidth 32 <<< 8) ||| e.I.setWidth 32
  | _ => 0

/-- `execute(decode(w))` (20_memory.md R66, 30_encoding.md R84). -/
def executeWord (w : Word) (s : State) : Host.Outcome State Fault Refusal :=
  match decode w with
  | .ok i => exec i s
  | .error _ => execIllegal s

/-- `write_reg(off, v)` (20_memory.md R66): a command at offset 0, no effect elsewhere in the window. -/
def writeReg (off : Nat) (w : Word) (s : State) : Host.Outcome State Fault Refusal :=
  if off = 0 then executeWord w s else .next s

/-- The outcome with a host's answer recorded in its next state. -/
def answered (host : Nat) (a : Answer) : Host.Outcome State Fault Refusal → Host.Outcome State Fault Refusal
  | .next t => .next (t.respond host a)
  | .fault r => .fault r
  | .refused r => .refused r

/-- The answer to `MemRead(addr, n)` (20_memory.md R51, R52, R65). It changes no state (R55). -/
def readAnswer (s : State) (addr n : Nat) : Answer :=
  match windowOffset s.params.base addr with
  | none => .notDecoded
  | some off => if admitted off n then .data (readReg s.engine off) else .busError

/-- `MemWrite(addr, n, v)` (20_memory.md R51, R52, R66), acknowledged when its effects are made (R57). -/
def serveWrite (host addr : Nat) (lanes : List Byte) (s : State) : Host.Outcome State Fault Refusal :=
  match windowOffset s.params.base addr with
  | none => .next (s.respond host .notDecoded)
  | some off =>
    if admitted off lanes.length then answered host .written (writeReg off (wordOfLanes lanes) s)
    else .next (s.respond host .busError)

/-- One host access (20_memory.md R52). -/
def serveAccess (host : Nat) (a : Access) (s : State) : Host.Outcome State Fault Refusal :=
  match a with
  | .read addr n => .next (s.respond host (readAnswer s addr n))
  | .write addr lanes => serveWrite host addr lanes s

/-- What only a host of the block may do (00_scope.md R12: "one of the N_HOSTS hosts"; log entry 7). -/
def fromHost (host : Nat) (s : State) (o : Host.Outcome State Fault Refusal) : Host.Outcome State Fault Refusal :=
  if host < s.params.nHosts then o else .fault (.noSuchHost host)

/-- Serve one event whole (20_memory.md R56, R57). -/
def serve (ev : Event) (s : State) : Host.Outcome State Fault Refusal :=
  match ev with
  | .access host a => fromHost host s (serveAccess host a s)
  | .timedOutCommand host w => fromHost host s (answered host .timedOut (executeWord w s))
  | .resetDuringCommand host _ => fromHost host s (.next (s.powerOnReset.respond host .abandoned))
  | .powerOnReset => .next s.powerOnReset

/-- The next event in arrival order (20_memory.md R57). With nothing waiting the engine does nothing (R50). -/
def serveNext (s : State) : Host.Outcome State Fault Refusal :=
  match s.port with
  | [] => .next s
  | ev :: rest => serve ev (s.setPort rest)

/-- Host 0's CMD write of a word, the way a command reaches the engine (30_encoding.md R80). -/
def commandWrite (base : Nat) (w : Word) : Event := .access 0 (.write base (lanesOfWord w))

/-- The machine with the CMD write of a word first at its port, and at least the one host that issues it. -/
def placeCommand (w : Word) (s : State) : State :=
  { s with
    params := { s.params with nHosts := max 1 s.params.nHosts }
    port := commandWrite s.params.base w :: s.port }

end Sys2Proof.Machine
end

