-- ==== Sys2Proof/Machine/Step.lean ====
section
/-! DEFINITION. The unit of a step: one event at the engine's port, one host bus access in a run of accesses
(00_scope.md rules R11, R12). -/

namespace Sys2Proof.Machine

/-- One step (00_scope.md R11): the next event at the port is served whole. -/
def step (s : State) : Host.Outcome State Fault Refusal := serveNext s

/-- The state in which the very next step executes the command word whose low `nbits` bits are those of `w`: the
engine fetches nothing (10_state.md R31), so the word is placed as the first CMD write at the port. -/
def State.withFetchWord (s : State) (nbits w : Nat) : State := placeCommand (tableWord nbits w) s

end Sys2Proof.Machine
end

