-- ==== Sys2Proof/Machine/Assembler.lean ====
section
/-! DEFINITION. What assembler statements and pseudo-instructions emit (30_encoding.md rules R87, R88): bus accesses
of a host. An ill-formed statement emits nothing. -/

namespace Sys2Proof

/-- The offset of a named register (10_state.md R33). -/
def Reg.offset : Reg → Nat
  | .cmd => 0x00
  | .status => 0x04
  | .result => 0x08
  | .keylen => 0x0C
  | .cursor => 0x10

/-- The codes of a text key or text units, `'c'` being the code of `c` (30_encoding.md R87). -/
def textCodes (s : String) : List Nat := s.toList.map Char.toNat

/-- The statements a pseudo-instruction expands to (30_encoding.md R88). -/
def Pseudo.expand : Pseudo → List Stmt
  | .loadkey codes => .setlen codes.length :: codes.mapIdx .keywr
  | .newkey codes => (.setlen codes.length :: codes.mapIdx .keywr) ++ [.init]
  | .process units => units.flatMap fun u => [.proc u, .rd .result]
  | .keystream n => (List.replicate n [Stmt.next, .rd .result]).flatten
  | .getkey kl => .rd .keylen :: (List.range kl).flatMap fun n => [.keyrd n, .rd .result]
  | .dumps => (List.range 256).flatMap fun n => [.srd n, .rd .result]

/-- The statements of a pseudo-instruction, none where it is ill formed (30_encoding.md R87, R88). -/
def Pseudo.assemble (p : Pseudo) : Option (List Stmt) := if p.wf then some p.expand else none

namespace Machine

/-- The access a statement emits (30_encoding.md R87): a command `C` is `WR CMD, enc(C)`; `RD r` and `WR r, v` are the
word accesses of the register. None where it is ill formed: "No word is emitted". -/
def stmtAccess (base : Nat) (t : Stmt) : Option Access :=
  match t.toInstr with
  | some i => some (.write (base + Reg.cmd.offset) (lanesOfWord (encode i)))
  | none =>
    match t with
    | .rd r => some (.read (base + r.offset) 4)
    | .wr r n => if t.wf then some (.write (base + r.offset) (lanesOfWord (BitVec.ofNat 32 n))) else none
    | .setlen _ | .keywr _ _ | .init | .next | .proc _ | .reset | .keyrd _ | .srd _ | .clrerr => none

/-- The events of a host running the statements in order (20_memory.md R58); none if one of them is ill formed. -/
def hostEvents (host base : Nat) (ts : List Stmt) : Option (List Event) :=
  ts.mapM fun t => (stmtAccess base t).map (Event.access host)

/-- The events of a host's pseudo-instruction. -/
def pseudoEvents (host base : Nat) (p : Pseudo) : Option (List Event) := p.assemble.bind (hostEvents host base)

end Machine

end Sys2Proof
end

