-- ==== Sys2Proof/Safety.lean ====
section
/-! DEFINITION. The terms the claims are made in: the invariant of reachable engines (10_state.md rule R40), the
keystream trajectory (rule R41), what no run can see of the power-on contents (rule R42), runs and the hosts'
programs (00_scope.md rule R12; 20_memory.md rules R58, R59). -/

namespace Sys2Proof.Machine

/-- 10_state.md R40 (a) to (e), with the bijection of R22. -/
structure Engine.Inv (e : Engine) : Prop where
  /-- (a) -/
  stagingLength : e.KBL.toNat ≤ 256
  /-- (b) -/
  keyLengthZero : e.KL = 0 ↔ e.MODE = .uninit
  /-- (c), the length -/
  keyLength : e.MODE = .keyed → 1 ≤ e.KL.toNat ∧ e.KL.toNat ≤ 256
  /-- (c), the permutation -/
  permutation : e.MODE = .keyed → IsPermutation e.S
  /-- (e); (d) is the width of `I` and `J` -/
  errorCode : e.ERR.toNat ≤ 4

/-- 10_state.md R41: while KEYED, `(S, I, J)` is `STEP^n(KSA(K, KL))` for some number `n` of steps. -/
def Engine.OnTrajectory (e : Engine) : Prop :=
  e.MODE = .keyed → ∃ n : Nat, e.toGenerator = (keySchedule e.K e.KL).steps n

/-- An engine in a state power-on reset can leave: any contents of `S` and `K` (10_state.md R42). -/
def Engine.IsPorState (e : Engine) : Prop := ∃ S K : Table, e = Engine.afterPor S K

/-- The premises about the block a run may rely on (00_scope.md R6, R12): legal parameters, and every event is of a
host of the block. -/
def Event.ofBlock (p : Params) : Event → Prop
  | .access host _ | .timedOutCommand host _ | .resetDuringCommand host _ => host < p.nHosts
  | .powerOnReset => True

/-- A state every event of which can be served. -/
def State.Served (s : State) : Prop := s.params.wf = true ∧ ∀ ev ∈ s.port, ev.ofBlock s.params

/-- Two engines no access can tell apart (10_state.md R42, R25; 93_implementation_defined.md U7, U8): all items equal,
but for `S` and `K` while UNINIT, and for the entries of `K` from `KL` on. -/
structure Engine.Indistinguishable (e f : Engine) : Prop where
  cursors : e.I = f.I ∧ e.J = f.J
  staging : e.KB = f.KB ∧ e.KBL = f.KBL
  keyLength : e.KL = f.KL
  status : e.MODE = f.MODE ∧ e.ERR = f.ERR
  result : e.RESULT = f.RESULT
  permutation : e.MODE = .keyed → e.S = f.S
  key : e.MODE = .keyed → ∀ n : Byte, n.toNat < e.KL.toNat → readEntry e.K n = readEntry f.K n

/-- Two machines no host can tell apart: the outside world is the same and the engines are indistinguishable. Their next
power-on resets may draw different contents of `S` and `K` (log entry 3). -/
structure State.Indistinguishable (s t : State) : Prop where
  engine : s.engine.Indistinguishable t.engine
  params : s.params = t.params
  port : s.port = t.port
  responses : s.responses = t.responses

/-- The word an event makes the engine execute: the data of an admitted CMD write (20_memory.md R66), or a held CMD
write the platform timed out (70_reset_and_hazards.md R240). -/
def Event.commandWord (base : Nat) : Event → Option Word
  | .access _ (.write addr lanes) =>
    if addr = base ∧ lanes.length = 4 then some (wordOfLanes lanes) else none
  | .timedOutCommand _ w => some w
  | .access _ (.read _ _) | .resetDuringCommand _ _ | .powerOnReset => none

/-- An event whose service, in the given state, can neither change the committed key nor unkey the engine: no power-on
reset, and no INIT but one that fails with staging length 0 (10_state.md R25, R27; 40_initialize.md R103). -/
def Event.keepsKey (s : State) (ev : Event) : Prop :=
  (match ev with
    | .resetDuringCommand _ _ | .powerOnReset => False
    | .access _ _ | .timedOutCommand _ _ => True) ∧
  (ev.commandWord s.params.base = some (encode .init) → s.engine.KBL = 0)

/-- The event the next step serves, if any, keeps the key. -/
def State.NextKeepsKey (s : State) : Prop := ∀ ev ∈ s.port.head?, ev.keepsKey s

/-- The state in which an error of the given code has been recorded and nothing else has changed (60_exceptions.md R207,
R208). -/
def State.recording (s : State) (code : BitVec 4) : State :=
  { s with engine := { s.engine with ERR := if s.engine.ERR = 0 then code else s.engine.ERR } }

/-- The commands that need KEYED (30_encoding.md R82, last column; 60_exceptions.md R203). -/
def needsKeyed : Instr → Bool
  | .next | .proc _ | .reset | .keyrd _ | .srd _ => true
  | .setlen _ | .keywr _ _ | .init | .clrerr => false

/-- The output units of PROC over a sequence of units, from a generator: the k-th is the k-th unit XOR the k-th keystream
byte (41_keystream.md R132, R135). -/
def Generator.process (g : Generator) : List U16 → List U16
  | [] => []
  | u :: us => (u ^^^ (g.stepByte).setWidth 16) :: g.step.process us

/-- The answers a host gets for `PROCESS` with the given outputs: each PROC acknowledged, each output read back from
RESULT (30_encoding.md R88). -/
def processAnswers (host : Nat) (outputs : List U16) : List Response :=
  outputs.flatMap fun v => [⟨host, .written⟩, ⟨host, .data (v.setWidth 32)⟩]

/-- A statement emits one write to CMD, at the window's base, whose lanes decode to the command (30_encoding.md R87). -/
def EmitsCommand (base : Nat) (t : Stmt) (i : Instr) : Prop :=
  ∃ lanes, stmtAccess base t = some (.write base lanes) ∧ decodeLanes lanes = some i

/-- The host an event comes from. -/
def Event.host : Event → Option Nat
  | .access host _ | .timedOutCommand host _ | .resetDuringCommand host _ => some host
  | .powerOnReset => none

/-- A host's own accesses in an arrival order, in program order (20_memory.md R58). -/
def programOf (host : Nat) (port : List Event) : List Event := port.filter fun ev => ev.host == some host

/-- An arrival order is an interleaving of the hosts' programs that keeps each one's own order (20_memory.md R59). -/
def Interleaves (programs : List (List Event)) (port : List Event) : Prop :=
  (∀ ev ∈ port, ∀ h, ev.host = some h → h < programs.length) ∧
  ∀ h : Nat, h < programs.length → programs[h]? = some (programOf h port)

end Sys2Proof.Machine
end

