-- ==== Sys2Proof/Certificates/Slice0/Obligations.lean ====
section
/-! DEFINITION. The statements for the provers, one per rule or group of rules of spec/ that says what a command or the
machine does. "Nothing else changes" is said by a record update of the whole state: every field not named in it is the
old one, of the engine and of the outside world. -/

open Sys2Proof Sys2Proof.Machine

/-! ### Encoding -/

/-- Decoding the word of a command gives the command back, in the word and in its byte lanes (30_encoding.md R81, R84;
20_memory.md R53). -/
def Obligations.DecodeOfEncodeIsTheCommand : Prop :=
  ∀ i : Instr, decode (encode i) = .ok i ∧ decodeLanes (lanesOfWord (encode i)) = some i

/-- A legal word is the encoding of the command it decodes to, so no two words mean the same command (30_encoding.md R81,
R84). -/
def Obligations.EncodeOfDecodeIsTheWord : Prop :=
  ∀ (w : Word) (i : Instr), decode w = .ok i → encode i = w

/-- "A word selects mnemonic m exactly when (w & mask_m) = match_m. No two rows overlap" (30_encoding.md R82), against the
decoder of R84. -/
def Obligations.MatchAndMaskSelectTheDecodedRow : Prop :=
  ∀ w : Word,
    (∀ r ∈ opcodeRows, r.selects w = true ↔ ∃ i, decode w = .ok i ∧ i.row = r) ∧
    opcodeRows.Pairwise fun r r' => ¬(r.selects w = true ∧ r'.selects w = true)

/-- The illegal words are exactly those of 30_encoding.md R85, and executing one raises IllegalCommand and changes nothing
else. -/
def Obligations.IllegalWordsAreRefusedWithIllegalCommand : Prop :=
  ∀ (w : Word) (s : State),
    ((∃ r, decode w = .error r) ↔
      (w.extractLsb' 24 8).toNat = 0 ∨ 0x0A ≤ (w.extractLsb' 24 8).toNat ∨
      ((w.extractLsb' 24 8).toNat = 1 ∧ w.extractLsb' 9 15 ≠ 0) ∨
      ((w.extractLsb' 24 8).toNat = 2 ∧ w.extractLsb' 8 8 ≠ 0) ∨
      ((w.extractLsb' 24 8).toNat ∈ [3, 4, 6, 9] ∧ w.extractLsb' 0 24 ≠ 0) ∨
      ((w.extractLsb' 24 8).toNat = 5 ∧ w.extractLsb' 16 8 ≠ 0) ∨
      ((w.extractLsb' 24 8).toNat ∈ [7, 8] ∧ w.extractLsb' 0 16 ≠ 0)) ∧
    ((∃ r, decode w = .error r) → executeWord w s = .next (s.recording 3))

/-- Words written out from the layouts of 30_encoding.md R81 and the examples of the command rules decode to the commands
they stand for. -/
def Obligations.WrittenOutWordsDecode : Prop :=
  decode 0x010001FF = .ok (.setlen 511) ∧ decode 0x02020059 = .ok (.keywr 2 0x59) ∧
  decode 0x03000000 = .ok .init ∧ decode 0x0500263A = .ok (.proc 0x263A) ∧ decode 0x06000000 = .ok .reset ∧
  decode 0x08FF0000 = .ok (.srd 0xFF) ∧ decode 0x09000001 = .error (.strayBits 9) ∧
  decode 0x00000000 = .error (.reservedOp 0)

/-- The byte lanes are little-endian: the first byte carries bits [7:0], the fourth bits [31:24] (20_memory.md R53). -/
def Obligations.LanesCarryTheWordLittleEndian : Prop :=
  ∀ b0 b1 b2 b3 : Byte,
    (wordOfLanes [b0, b1, b2, b3]).toNat =
      b0.toNat + 2 ^ 8 * b1.toNat + 2 ^ 16 * b2.toNat + 2 ^ 24 * b3.toNat ∧
    lanesOfWord (wordOfLanes [b0, b1, b2, b3]) = [b0, b1, b2, b3]

/-! ### Commands: completion, result and frame -/

/-- SETLEN (40_initialize.md R100): a length up to 256 becomes the staging length and nothing else changes; a longer one
raises KeyTooLong (code 4); a stray bit raises IllegalCommand (code 3). -/
def Obligations.SetlenStoresTheStagingLength : Prop :=
  ∀ (len : U9) (s : State),
    (len.toNat ≤ 256 → exec (.setlen len) s = .next { s with engine := { s.engine with KBL := len } }) ∧
    (256 < len.toNat → exec (.setlen len) s = .next (s.recording 4)) ∧
    executeWord (BitVec.ofNat 32 (0x01000000 + len.toNat)) s = exec (.setlen len) s ∧
    ∀ w : Word, w.extractLsb' 24 8 = 0x01 → w.extractLsb' 9 15 ≠ 0 → executeWord w s = .next (s.recording 3)

/-- KEYWR (40_initialize.md R101): entry `idx` of the staging key becomes `byte`, in both modes, and nothing else
changes. -/
def Obligations.KeywrWritesOneStagingCode : Prop :=
  ∀ (idx byte : Byte) (s : State),
    (∃ KB : Table,
      exec (.keywr idx byte) s = .next { s with engine := { s.engine with KB := KB } } ∧
      ∀ n : Byte, readEntry KB n = if n = idx then byte else readEntry s.engine.KB n) ∧
    executeWord (BitVec.ofNat 32 (0x02000000 + 2 ^ 16 * idx.toNat + byte.toNat)) s = exec (.keywr idx byte) s ∧
    ∀ w : Word, w.extractLsb' 24 8 = 0x02 → w.extractLsb' 8 8 ≠ 0 → executeWord w s = .next (s.recording 3)

/-- INIT (40_initialize.md R103, R104): with staging length 0 it raises InvalidKey (code 1) and writes nothing else;
otherwise it commits the staging key, runs the key schedule on it and makes the engine KEYED, in both modes; the staging
key, ERR and RESULT stay. -/
def Obligations.InitConstructsTheEngine : Prop :=
  ∀ s : State,
    (s.engine.KBL = 0 → exec .init s = .next (s.recording 1)) ∧
    (s.engine.KBL ≠ 0 →
      exec .init s = .next
        { s with
          engine :=
            { s.engine with
              toGenerator := keySchedule s.engine.KB s.engine.KBL
              K := s.engine.KB, KL := s.engine.KBL, MODE := .keyed } }) ∧
    executeWord 0x03000000 s = exec .init s ∧
    ∀ w : Word, w.extractLsb' 24 8 = 0x03 → w ≠ 0x03000000 → executeWord w s = .next (s.recording 3)

/-- NEXT (41_keystream.md R130, R131): one keystream step, spelled out entry by entry, and its byte in RESULT; nothing
else changes; NotKeyed (code 2) while UNINIT. -/
def Obligations.NextTakesOneKeystreamStep : Prop :=
  ∀ s : State,
    (s.engine.MODE = .keyed →
      ∃ S : Table,
        (∀ n : Byte, readEntry S n =
          if n = s.engine.I + 1 then readEntry s.engine.S (s.engine.J + readEntry s.engine.S (s.engine.I + 1))
          else if n = s.engine.J + readEntry s.engine.S (s.engine.I + 1) then readEntry s.engine.S (s.engine.I + 1)
          else readEntry s.engine.S n) ∧
        exec .next s = .next
          { s with
            engine :=
              { s.engine with
                S := S, I := s.engine.I + 1
                J := s.engine.J + readEntry s.engine.S (s.engine.I + 1)
                RESULT :=
                  (readEntry S (readEntry S (s.engine.I + 1) +
                    readEntry S (s.engine.J + readEntry s.engine.S (s.engine.I + 1)))).setWidth 16 } }) ∧
    (s.engine.MODE = .uninit → exec .next s = .next (s.recording 2)) ∧
    executeWord 0x04000000 s = exec .next s ∧
    ∀ w : Word, w.extractLsb' 24 8 = 0x04 → w ≠ 0x04000000 → executeWord w s = .next (s.recording 3)

/-- PROC (41_keystream.md R130, R132): the same step, and RESULT is the unit XOR the keystream byte; nothing else changes;
NotKeyed (code 2) while UNINIT. -/
def Obligations.ProcXorsTheUnitWithOneKeystreamByte : Prop :=
  ∀ (unit : U16) (s : State),
    (s.engine.MODE = .keyed →
      ∃ S : Table,
        (∀ n : Byte, readEntry S n =
          if n = s.engine.I + 1 then readEntry s.engine.S (s.engine.J + readEntry s.engine.S (s.engine.I + 1))
          else if n = s.engine.J + readEntry s.engine.S (s.engine.I + 1) then readEntry s.engine.S (s.engine.I + 1)
          else readEntry s.engine.S n) ∧
        exec (.proc unit) s = .next
          { s with
            engine :=
              { s.engine with
                S := S, I := s.engine.I + 1
                J := s.engine.J + readEntry s.engine.S (s.engine.I + 1)
                RESULT := unit ^^^
                  (readEntry S (readEntry S (s.engine.I + 1) +
                    readEntry S (s.engine.J + readEntry s.engine.S (s.engine.I + 1)))).setWidth 16 } }) ∧
    (s.engine.MODE = .uninit → exec (.proc unit) s = .next (s.recording 2)) ∧
    executeWord (BitVec.ofNat 32 (0x05000000 + unit.toNat)) s = exec (.proc unit) s ∧
    ∀ w : Word, w.extractLsb' 24 8 = 0x05 → w.extractLsb' 16 8 ≠ 0 → executeWord w s = .next (s.recording 3)

/-- "NEXT and PROC 0 write the same S, I, J and RESULT", and each output keeps the unit's high byte and XORs its low byte
with the byte NEXT gives from the same state (41_keystream.md R134, R139). -/
def Obligations.ProcPassesTheHighByteAndMatchesNext : Prop :=
  ∀ (unit : U16) (s : State), exec .next s = exec (.proc 0) s ∧
    (s.engine.MODE = .keyed → ∃ t u : State, exec .next s = .next t ∧ exec (.proc unit) s = .next u ∧
      u.engine.toGenerator = t.engine.toGenerator ∧
      u.engine.RESULT.extractLsb' 8 8 = unit.extractLsb' 8 8 ∧
      u.engine.RESULT.extractLsb' 0 8 = unit.extractLsb' 0 8 ^^^ t.engine.RESULT.extractLsb' 0 8 ∧
      t.engine.RESULT.extractLsb' 8 8 = 0)

/-- RESET (42_reset.md R160, R162): the key schedule of the committed key, whatever is staged; everything but `S`, `I`, `J`
stays; a second RESET changes nothing; NotKeyed (code 2) while UNINIT. -/
def Obligations.ResetRekeysFromTheCommittedKey : Prop :=
  ∀ s : State,
    (s.engine.MODE = .keyed →
      ∃ t : State,
        t = { s with engine := { s.engine with toGenerator := keySchedule s.engine.K s.engine.KL } } ∧
        exec .reset s = .next t ∧ exec .reset t = .next t ∧
        ∀ (KB : Table) (KBL : U9), exec .reset { s with engine := { s.engine with KB := KB, KBL := KBL } } =
          .next { t with engine := { t.engine with KB := KB, KBL := KBL } }) ∧
    (s.engine.MODE = .uninit → exec .reset s = .next (s.recording 2)) ∧
    executeWord 0x06000000 s = exec .reset s ∧
    ∀ w : Word, w.extractLsb' 24 8 = 0x06 → w ≠ 0x06000000 → executeWord w s = .next (s.recording 3)

/-- KEYRD (43_inspect_control.md R170): RESULT is the committed code below the committed length and 0 from there on;
nothing else changes; NotKeyed (code 2) while UNINIT. -/
def Obligations.KeyrdReadsTheCommittedKey : Prop :=
  ∀ (idx : Byte) (s : State),
    (s.engine.MODE = .keyed → idx.toNat < s.engine.KL.toNat →
      exec (.keyrd idx) s =
        .next { s with engine := { s.engine with RESULT := (readEntry s.engine.K idx).setWidth 16 } }) ∧
    (s.engine.MODE = .keyed → s.engine.KL.toNat ≤ idx.toNat →
      exec (.keyrd idx) s = .next { s with engine := { s.engine with RESULT := 0 } }) ∧
    (s.engine.MODE = .uninit → exec (.keyrd idx) s = .next (s.recording 2)) ∧
    executeWord (BitVec.ofNat 32 (0x07000000 + 2 ^ 16 * idx.toNat)) s = exec (.keyrd idx) s ∧
    ∀ w : Word, w.extractLsb' 24 8 = 0x07 → w.extractLsb' 0 16 ≠ 0 → executeWord w s = .next (s.recording 3)

/-- SRD (43_inspect_control.md R171): RESULT is the permutation entry; nothing else changes; reading all 256 entries of a
permutation gives each value exactly once; NotKeyed (code 2) while UNINIT. -/
def Obligations.SrdReadsOnePermutationEntry : Prop :=
  ∀ (idx : Byte) (s : State),
    (s.engine.MODE = .keyed →
      exec (.srd idx) s =
        .next { s with engine := { s.engine with RESULT := (readEntry s.engine.S idx).setWidth 16 } }) ∧
    (s.engine.MODE = .keyed → IsPermutation s.engine.S →
      ∀ v : Byte, ∃! n : Byte, ∃ t, exec (.srd n) s = .next t ∧ t.engine.RESULT = v.setWidth 16) ∧
    (s.engine.MODE = .uninit → exec (.srd idx) s = .next (s.recording 2)) ∧
    executeWord (BitVec.ofNat 32 (0x08000000 + 2 ^ 16 * idx.toNat)) s = exec (.srd idx) s ∧
    ∀ w : Word, w.extractLsb' 24 8 = 0x08 → w.extractLsb' 0 16 ≠ 0 → executeWord w s = .next (s.recording 3)

/-- CLRERR (43_inspect_control.md R172): ERR becomes 0 in both modes and nothing else changes; a malformed CLRERR clears
nothing. -/
def Obligations.ClrerrClearsTheErrorStatus : Prop :=
  ∀ s : State,
    exec .clrerr s = .next { s with engine := { s.engine with ERR := 0 } } ∧
    executeWord 0x09000000 s = exec .clrerr s ∧
    ∀ w : Word, w.extractLsb' 24 8 = 0x09 → w ≠ 0x09000000 → executeWord w s = .next (s.recording 3)

/-! ### Errors and whole-machine rules over all commands -/

/-- Every command answers a next state, in every state, and leaves the outside world as it was: no error traps, redirects
or blocks (60_exceptions.md R200, R210). -/
def Obligations.EveryCommandCompletes : Prop :=
  ∀ (i : Instr) (s : State), ∃ e : Engine, exec i s = .next { s with engine := e }

/-- The checks are decode, then mode, then operand value, and the first that fails decides; a failing command changes ERR
alone; a command that passes all of them leaves ERR alone, but for CLRERR (60_exceptions.md R206, R207). -/
def Obligations.ErrorPriorityIsDecodeModeOperand : Prop :=
  ∀ (w : Word) (s : State),
    (∀ r, decode w = .error r → executeWord w s = .next (s.recording 3)) ∧
    ∀ i, decode w = .ok i →
      (needsKeyed i = true → s.engine.MODE = .uninit → executeWord w s = .next (s.recording 2)) ∧
      (∀ len, i = .setlen len → 256 < len.toNat → executeWord w s = .next (s.recording 4)) ∧
      (i = .init → s.engine.KBL = 0 → executeWord w s = .next (s.recording 1)) ∧
      (¬(needsKeyed i = true ∧ s.engine.MODE = .uninit) → (∀ len, i = .setlen len → len.toNat ≤ 256) →
        (i = .init → s.engine.KBL ≠ 0) → i ≠ .clrerr →
        ∃ t, executeWord w s = .next t ∧ t.engine.ERR = s.engine.ERR)

/-- `raise E` records its code only where none is recorded, and changes nothing else (60_exceptions.md R208); the codes
are those of R201. -/
def Obligations.RaiseRecordsTheFirstErrorCode : Prop :=
  CommandError.invalidKey.code = 1 ∧ CommandError.notKeyed.code = 2 ∧ CommandError.illegalCommand.code = 3 ∧
  CommandError.keyTooLong.code = 4 ∧
  ∀ (err : CommandError) (s : State),
    (s.engine.ERR = 0 → raise err s = .next { s with engine := { s.engine with ERR := err.code } }) ∧
    (s.engine.ERR ≠ 0 → raise err s = .next s) ∧
    raise err s = .next (s.recording err.code)

/-- In a step, ERR leaves a non-zero value only by the word of CLRERR and by a power-on reset, and both make it 0; INIT,
RESET and a successful command do not clear it (60_exceptions.md R209). -/
def Obligations.FirstErrorIsSticky : Prop :=
  ∀ (s t : State) (ev : Event) (rest : List Event),
    s.port = ev :: rest → s.engine.ERR ≠ 0 → step s = .next t →
      (ev.commandWord s.params.base = some 0x09000000 ∨ ev = .powerOnReset ∨ (∃ h w, ev = .resetDuringCommand h w) →
        t.engine.ERR = 0) ∧
      (ev.commandWord s.params.base ≠ some 0x09000000 → ev ≠ .powerOnReset →
        (∀ h w, ev ≠ .resetDuringCommand h w) → t.engine.ERR = s.engine.ERR)

/-- A command executes by its own rule whatever ERR holds: with another value in ERR, everything but ERR comes out the same
(60_exceptions.md R210). -/
def Obligations.ErrorsDoNotBlockCommands : Prop :=
  ∀ (i : Instr) (s t : State) (c : BitVec 4), exec i s = .next t →
    ∃ c' : BitVec 4, exec i { s with engine := { s.engine with ERR := c } } =
      .next { t with engine := { t.engine with ERR := c' } }

/-- Each of the ten state items is written only by the commands the table of 10_state.md R20 names; ERR only by CLRERR and
by a failing command, which records its code and changes nothing else (60_exceptions.md R206, R207). -/
def Obligations.OnlyTheNamedCommandsWriteEachItem : Prop :=
  ∀ (i : Instr) (s t : State), exec i s = .next t →
    (i ≠ .init → i ≠ .reset → i ≠ .next → (∀ u, i ≠ .proc u) → t.engine.toGenerator = s.engine.toGenerator) ∧
    (i ≠ .init → t.engine.K = s.engine.K ∧ t.engine.KL = s.engine.KL ∧ t.engine.MODE = s.engine.MODE) ∧
    ((∀ idx byte, i ≠ .keywr idx byte) → t.engine.KB = s.engine.KB) ∧
    ((∀ len, i ≠ .setlen len) → t.engine.KBL = s.engine.KBL) ∧
    (i ≠ .next → (∀ u, i ≠ .proc u) → (∀ n, i ≠ .keyrd n) → (∀ n, i ≠ .srd n) →
      t.engine.RESULT = s.engine.RESULT) ∧
    (needsKeyed i = true → s.engine.MODE = .uninit → t = s.recording 2) ∧
    (∀ len, i = .setlen len → 256 < len.toNat → t = s.recording 4) ∧
    (i = .init → s.engine.KBL = 0 → t = s.recording 1) ∧
    (i ≠ .clrerr → ¬(needsKeyed i = true ∧ s.engine.MODE = .uninit) → (∀ len, i = .setlen len → len.toNat ≤ 256) →
      (i = .init → s.engine.KBL ≠ 0) → t.engine.ERR = s.engine.ERR)

/-- While UNINIT, only SETLEN, KEYWR, INIT and CLRERR change anything but ERR; every other legal command records NotKeyed
(70_reset_and_hazards.md R234). -/
def Obligations.BeforeTheFirstKeyOnlyFourCommandsAct : Prop :=
  ∀ (i : Instr) (s : State), s.engine.MODE = .uninit → (∀ len, i ≠ .setlen len) →
    (∀ idx byte, i ≠ .keywr idx byte) → i ≠ .init → i ≠ .clrerr → exec i s = .next (s.recording 2)

/-! ### The key schedule and the keystream -/

/-- The key schedule (40_initialize.md R102): the identity and accumulator 0; then for i = 0..255 in order the accumulator
adds `S[i]` and `K[i mod L]` and the two entries are exchanged; the cursors end at 0 and the table is a permutation. -/
def Obligations.KeyScheduleFollowsItsRecurrence : Prop :=
  ∀ (K : Table) (L : U9), 1 ≤ L.toNat → L.toNat ≤ 256 →
    ∃ (T : Nat → Table) (j : Nat → Byte),
      (∀ n : Byte, readEntry (T 0) n = n) ∧ j 0 = 0 ∧
      (∀ i < 256,
        j (i + 1) = j i + readEntry (T i) (BitVec.ofNat 8 i) + readEntry K (BitVec.ofNat 8 (i % L.toNat)) ∧
        ∀ n : Byte, readEntry (T (i + 1)) n =
          if n = BitVec.ofNat 8 i then readEntry (T i) (j (i + 1))
          else if n = j (i + 1) then readEntry (T i) (BitVec.ofNat 8 i)
          else readEntry (T i) n) ∧
      IsPermutation (T 256) ∧ keySchedule K L = { S := T 256, I := 0, J := 0 }

/-- The schedule leaves a permutation, and every keystream step keeps one (10_state.md R22, 40_initialize.md R102,
41_keystream.md R137). -/
def Obligations.PermutationIsMadeAndKept : Prop :=
  (∀ (K : Table) (L : U9), IsPermutation (keySchedule K L).S) ∧
  ∀ g : Generator, IsPermutation g.S → IsPermutation g.step.S

/-- A keystream step can be undone: the state before it is recovered from the state after it, and every state is one
step's outcome (42_reset.md R161, 90_conflicts.md C6). -/
def Obligations.KeystreamStepIsInvertible : Prop :=
  ∀ g : Generator, g.step.unstep = g ∧ g.unstep.step = g

/-- After `n` steps from a freshly keyed state, `I` is `n mod 256` (41_keystream.md R138). -/
def Obligations.CursorICountsSteps : Prop :=
  ∀ (K : Table) (L : U9) (n : Nat), ((keySchedule K L).steps n).I.toNat = n % 256

/-- Keys whose 256-element extensions agree give the same table (40_initialize.md R105 (b)). -/
def Obligations.EqualExtensionsGiveTheSameSchedule : Prop :=
  ∀ (K K' : Table) (L L' : U9), 1 ≤ L.toNat → L.toNat ≤ 256 → 1 ≤ L'.toNat → L'.toNat ≤ 256 →
    (∀ i < 256, readEntry K (BitVec.ofNat 8 (i % L.toNat)) = readEntry K' (BitVec.ofNat 8 (i % L'.toNat))) →
    keySchedule K L = keySchedule K' L'

/-- The state after INIT depends only on the staged codes below the staging length (40_initialize.md R105 (a)). -/
def Obligations.InitDependsOnlyOnTheStagedCodes : Prop :=
  ∀ s s' t t' : State, 1 ≤ s.engine.KBL.toNat → s.engine.KBL.toNat ≤ 256 → s'.engine.KBL = s.engine.KBL →
    (∀ n : Byte, n.toNat < s.engine.KBL.toNat → readEntry s'.engine.KB n = readEntry s.engine.KB n) →
    exec .init s = .next t → exec .init s' = .next t' →
      t'.engine.toGenerator = t.engine.toGenerator ∧ t'.engine.MODE = .keyed ∧ t.engine.MODE = .keyed

/-! ### The bus -/

/-- The words the registers read as, as numbers (20_memory.md R65; 10_state.md R34 to R39). -/
def Obligations.RegisterWordsHoldTheirFields : Prop :=
  ∀ e : Engine,
    (readReg e 0x00).toNat = 0 ∧
    (readReg e 0x04).toNat = 2 ^ 4 * e.ERR.toNat + (if e.MODE = .keyed then 1 else 0) ∧
    (readReg e 0x08).toNat = e.RESULT.toNat ∧
    (readReg e 0x0C).toNat = 2 ^ 16 * e.KBL.toNat + e.KL.toNat ∧
    (readReg e 0x10).toNat = 2 ^ 8 * e.J.toNat + e.I.toNat ∧
    (readReg e 0x14).toNat = 0 ∧ (readReg e 0x18).toNat = 0 ∧ (readReg e 0x1C).toNat = 0

/-- An aligned 32-bit read in the window answers the register's word and changes no state (20_memory.md R52, R55). -/
def Obligations.AdmittedReadsAnswerTheRegister : Prop :=
  ∀ (s : State) (h off : Nat) (rest : List Event),
    s.port = .access h (.read (s.params.base + off) 4) :: rest → h < s.params.nHosts →
    off % 4 = 0 → off ≤ 0x1C →
    step s = .next
      { s with port := rest, responses := s.responses ++ [⟨h, .data (readReg s.engine off)⟩] }

/-- Any other access in the window, narrower, wider or misaligned, read or write, gets a bus error and changes no state
(20_memory.md R52, 60_exceptions.md R211). That the machine goes on is the model's choice (log entry 5). -/
def Obligations.OtherAccessesInTheWindowGetBusErrors : Prop :=
  ∀ (s : State) (h off : Nat) (rest : List Event), h < s.params.nHosts → off ≤ 0x1F →
    (∀ n, s.port = .access h (.read (s.params.base + off) n) :: rest → ¬(n = 4 ∧ off % 4 = 0) →
      step s = .next { s with port := rest, responses := s.responses ++ [⟨h, .busError⟩] }) ∧
    ∀ lanes, s.port = .access h (.write (s.params.base + off) lanes) :: rest → ¬(lanes.length = 4 ∧ off % 4 = 0) →
      step s = .next { s with port := rest, responses := s.responses ++ [⟨h, .busError⟩] }

/-- An access outside the window is not decoded: the engine gives no answer of its own and does not change
(20_memory.md R51). That the machine goes on is the model's choice (log entry 6). -/
def Obligations.AddressesOutsideTheWindowAreNotDecoded : Prop :=
  ∀ (s : State) (h addr : Nat) (rest : List Event), h < s.params.nHosts →
    addr < s.params.base ∨ s.params.base + 0x1F < addr →
    (∀ n, s.port = .access h (.read addr n) :: rest →
      step s = .next { s with port := rest, responses := s.responses ++ [⟨h, .notDecoded⟩] }) ∧
    ∀ lanes, s.port = .access h (.write addr lanes) :: rest →
      step s = .next { s with port := rest, responses := s.responses ++ [⟨h, .notDecoded⟩] }

/-- A word write to a read-only register or a reserved offset is acknowledged and ignored (10_state.md R39,
20_memory.md R66). -/
def Obligations.WritesOutsideCmdAreIgnored : Prop :=
  ∀ (s : State) (h off : Nat) (lanes : List Byte) (rest : List Event),
    s.port = .access h (.write (s.params.base + off) lanes) :: rest → h < s.params.nHosts → lanes.length = 4 →
    off ∈ [0x04, 0x08, 0x0C, 0x10, 0x14, 0x18, 0x1C] →
    step s = .next { s with port := rest, responses := s.responses ++ [⟨h, .written⟩] }

/-- A step on a CMD write runs exactly one command, the decoded one, and then acknowledges the write; an illegal word
raises IllegalCommand, with no bus error (20_memory.md R55, R57, R66). -/
def Obligations.StepRunsTheDecodedCommand : Prop :=
  ∀ (s : State) (h : Nat) (lanes : List Byte) (rest : List Event),
    s.port = .access h (.write s.params.base lanes) :: rest → h < s.params.nHosts → lanes.length = 4 →
    (∀ i, decode (wordOfLanes lanes) = .ok i →
      ∃ t, exec i { s with port := rest } = .next t ∧
        step s = .next { t with responses := t.responses ++ [⟨h, .written⟩] }) ∧
    (∀ r, decode (wordOfLanes lanes) = .error r →
      step s = .next
        { s.recording 3 with port := rest, responses := s.responses ++ [⟨h, .written⟩] })

/-- A command word placed at the port is what the very next step executes; the model's own loading of a command
(10_state.md R31 and log entry 4). -/
def Obligations.PlacedCommandRunsNext : Prop :=
  ∀ (s : State) (i : Instr),
    ∃ t, exec i { s with params := { s.params with nHosts := max 1 s.params.nHosts } } = .next t ∧
      step (s.withFetchWord 32 (encode i).toNat) =
        .next { t with responses := t.responses ++ [⟨0, .written⟩] }

/-- The engine takes one event at a time in arrival order, keeps the parameters, and answers each event at most once
(20_memory.md R57). The model's choices: the port and the answers as a record of the outside world (log entry 4), the one
answer to an abandoned and to a timed-out write (log entries 8 and 9), and that a power-on reset takes no other event from
the port (log entry 16). -/
def Obligations.EventsAreServedInArrivalOrder : Prop :=
  ∀ s t : State, step s = .next t →
    t.port = s.port.tail ∧ t.params = s.params ∧
    ∃ new : List Response, t.responses = s.responses ++ new ∧
      new.map (fun r => some r.host) = (s.port.head?.toList.map Event.host).filter Option.isSome

/-- Serving an event takes the first of its own host's program and leaves every other host's program as it was
(20_memory.md R58, R59). The model's choices: the port as the list of accesses that arrived, each once and in its host's
program order (log entries 4 and 13), and that a power-on reset drops no waiting access of any host (log entry 16). -/
def Obligations.EachHostKeepsItsProgramOrder : Prop :=
  ∀ (s t : State) (ev : Event) (rest : List Event), s.port = ev :: rest → step s = .next t →
    ∀ programs : List (List Event), Interleaves programs s.port →
      ∃ programs' : List (List Event), Interleaves programs' t.port ∧ programs'.length = programs.length ∧
        ∀ h : Nat, programs'[h]? =
          if ev.host = some h then programs[h]?.map List.tail else programs[h]?

/-- "Every admitted access from every host has the same effect" on the engine (60_exceptions.md R217). -/
def Obligations.EveryHostHasTheSameEffect : Prop :=
  ∀ (s t : State) (h h' : Nat) (a : Access) (rest : List Event), h' < s.params.nHosts →
    step { s with port := .access h a :: rest } = .next t →
    ∃ t', step { s with port := .access h' a :: rest } = .next t' ∧ t'.engine = t.engine

/-- A held CMD write the platform times out is still executed whole (70_reset_and_hazards.md R240). The event and its
answer are the model's choice (log entry 9). -/
def Obligations.TimedOutCommandsStillExecute : Prop :=
  ∀ (s : State) (h : Nat) (w : Word) (rest : List Event),
    s.port = .timedOutCommand h w :: rest → h < s.params.nHosts →
    ∃ t u, step s = .next t ∧
      step { s with port := .access h (.write s.params.base (lanesOfWord w)) :: rest } = .next u ∧
      t.engine = u.engine ∧ t.port = rest ∧ t.responses = s.responses ++ [⟨h, .timedOut⟩]

/-! ### Power-on reset -/

/-- The values 10_state.md R42 gives for reset hold in the reset state; of `S` and `K`, which it leaves unspecified, nothing
is said. -/
def Obligations.ResetStateHasTheSpecifiedValues : Prop :=
  State.reset.engine.MODE = .uninit ∧ State.reset.engine.ERR = 0 ∧ State.reset.engine.RESULT = 0 ∧
  State.reset.engine.KBL = 0 ∧ State.reset.engine.KL = 0 ∧ State.reset.engine.I = 0 ∧
  State.reset.engine.J = 0 ∧ ∀ n : Byte, readEntry State.reset.engine.KB n = 0

/-- A power-on reset gives every item but `S` and `K` its reset value, from any state, and STATUS, RESULT, KEYLEN and CURSOR
read 0 (70_reset_and_hazards.md R230). That the waiting events stay is the model's choice (log entry 16). -/
def Obligations.PowerOnResetGivesTheResetValues : Prop :=
  ∀ (s : State) (rest : List Event), s.port = .powerOnReset :: rest →
    ∃ t, step s = .next t ∧ t.engine.MODE = .uninit ∧ t.engine.ERR = 0 ∧ t.engine.RESULT = 0 ∧
      t.engine.KBL = 0 ∧ (∀ n : Byte, readEntry t.engine.KB n = 0) ∧ t.engine.KL = 0 ∧ t.engine.I = 0 ∧
      t.engine.J = 0 ∧ (∀ off ∈ [0x04, 0x08, 0x0C, 0x10], readReg t.engine off = 0) ∧
      t.params = s.params ∧ t.port = rest ∧ t.responses = s.responses

/-- A power-on reset during a command abandons it: the engine is in a power-on reset state, and no access can tell which
command was abandoned or what the engine held before; of `S` and `K` nothing is said (70_reset_and_hazards.md R231,
10_state.md R42). The event and its answer are the model's choice (log entry 8), and so is that the waiting events stay
(log entry 16). -/
def Obligations.PowerOnResetAbandonsTheCommand : Prop :=
  ∀ (s : State) (h : Nat) (w : Word) (rest : List Event),
    s.port = .resetDuringCommand h w :: rest → h < s.params.nHosts →
    ∃ t, step s = .next t ∧ t.engine.IsPorState ∧ t.port = rest ∧
      t.responses = s.responses ++ [⟨h, .abandoned⟩] ∧
      ∀ (w' : Word) (e : Engine), ∃ u,
        step { s with engine := e, port := .resetDuringCommand h w' :: rest } = .next u ∧ u.engine.Indistinguishable t.engine

/-! ### Invariants and runs -/

/-- Every state power-on reset can leave, the reset state among them, satisfies the invariant and is on the trajectory
(10_state.md R40, R41, R42). -/
def Obligations.PowerOnStatesSatisfyTheInvariant : Prop :=
  State.reset.engine.IsPorState ∧ ∀ e : Engine, e.IsPorState → e.Inv ∧ e.OnTrajectory

/-- Every step keeps the invariant of 10_state.md R40 and the bijection of R22. -/
def Obligations.StepKeepsTheEngineInvariant : Prop :=
  ∀ s t : State, s.engine.Inv → step s = .next t → t.engine.Inv

/-- Every step keeps the generator on the keystream of the committed key: while KEYED, `(S, I, J)` is
`STEP^n(KSA(K, KL))` for some `n` (10_state.md R41). -/
def Obligations.StepKeepsTheKeystreamTrajectory : Prop :=
  ∀ s t : State, s.engine.OnTrajectory → step s = .next t → t.engine.OnTrajectory

/-- A run whose events all come from hosts of the block never stops: every step answers a next state (00_scope.md R12,
60_exceptions.md R200). That the machine goes on with an empty port, after a bus error, after an undecoded address, after a
timeout and after a power-on reset with events waiting, and that an event of another host faults, are the model's choices
(log entries 4, 5, 6, 9, 8 and 16, 7). -/
def Obligations.ServedRunsNeverStop : Prop :=
  ∀ (s : State) (k : Nat), s.Served → ∃ t : State, Host.Core.run core k s = .next t ∧ t.Served

/-- What 10_state.md R42 leaves unspecified is unobservable: machines that differ only in `S` and `K` while UNINIT, or in
`K` from `KL` on, take steps to machines that differ only so, with equal answers to every host. -/
def Obligations.PowerOnContentsAreUnobservable : Prop :=
  ∀ s s' t : State, s.Indistinguishable s' → step s = .next t →
    ∃ t', step s' = .next t' ∧ t.Indistinguishable t'

/-- A step on anything but a successful INIT and a power-on reset keeps the committed key and the mode (10_state.md R25,
R27). -/
def Obligations.StepKeepsTheCommittedKey : Prop :=
  ∀ s t : State, s.NextKeepsKey → step s = .next t →
    t.engine.K = s.engine.K ∧ t.engine.KL = s.engine.KL ∧ t.engine.MODE = s.engine.MODE

/-- After a successful INIT and any run in which no further INIT succeeds and no power-on reset is served, RESET puts `S`,
`I` and `J` back to their values right after that INIT, whatever was staged, processed or refused between, a failed INIT
among it (42_reset.md R161). -/
def Obligations.ResetRestoresTheStateAfterInit : Prop :=
  ∀ (s t₀ t : State) (k : Nat), s.engine.KBL ≠ 0 → exec .init s = .next t₀ →
    (∀ (j : Nat) (u : State), j < k → Host.Core.run core j t₀ = .next u → u.NextKeepsKey) →
    Host.Core.run core k t₀ = .next t →
    ∃ u : State, exec .reset t = .next u ∧ u.engine.toGenerator = t₀.engine.toGenerator ∧
      u.engine.K = t₀.engine.K ∧ u.engine.KL = t₀.engine.KL

/-- A host's NEWKEY on the bus, from any state, makes the engine KEYED with exactly the given codes, freshly scheduled
(30_encoding.md R87, R88; 70_reset_and_hazards.md R233). -/
def Obligations.NewkeyKeysTheEngine : Prop :=
  ∀ (s : State) (h : Nat) (codes : List Nat) (evs rest : List Event), h < s.params.nHosts →
    pseudoEvents h s.params.base (.newkey codes) = some evs → s.port = evs ++ rest →
    ∃ t : State, Host.Core.run core (codes.length + 2) s = .next t ∧ t.port = rest ∧
      t.engine.MODE = .keyed ∧ t.engine.KL.toNat = codes.length ∧
      (∀ (n : Nat) (hn : n < codes.length), (readEntry t.engine.K (BitVec.ofNat 8 n)).toNat = codes[n]) ∧
      t.engine.toGenerator = keySchedule t.engine.K t.engine.KL ∧
      t.engine.ERR = s.engine.ERR ∧ t.engine.RESULT = s.engine.RESULT

/-- A host's PROCESS on the bus of a KEYED engine answers one output per unit, each the unit XOR its own keystream byte,
and advances the engine by exactly as many steps; with no unit nothing happens (41_keystream.md R135). -/
def Obligations.ProcessAnswersOneOutputPerUnit : Prop :=
  ∀ (s : State) (h : Nat) (units : List U16) (evs rest : List Event), s.engine.MODE = .keyed →
    h < s.params.nHosts → pseudoEvents h s.params.base (.process (units.map BitVec.toNat)) = some evs →
    s.port = evs ++ rest →
    ∃ t : State, Host.Core.run core (2 * units.length) s = .next t ∧ t.port = rest ∧
      t.responses = s.responses ++ processAnswers h (s.engine.toGenerator.process units) ∧
      (s.engine.toGenerator.process units).length = units.length ∧
      t = { s with
            engine := { s.engine with
              toGenerator := s.engine.toGenerator.steps units.length, RESULT := t.engine.RESULT }
            port := rest, responses := t.responses }

/-- Round trip (41_keystream.md R136): two KEYED engines with the same `(S, I, J)`; what the first answers to PROCESS of the
units, the second answers back with the units, and both end with the same `(S, I, J)`. -/
def Obligations.ProcessRoundTrip : Prop :=
  ∀ (s s' : State) (h h' : Nat) (units : List U16), s.engine.MODE = .keyed → s'.engine.MODE = .keyed →
    s.engine.toGenerator = s'.engine.toGenerator → h < s.params.nHosts → h' < s'.params.nHosts →
    ∃ (outputs : List U16) (evs evs' : List Event) (t t' : State),
      pseudoEvents h s.params.base (.process (units.map BitVec.toNat)) = some evs ∧
      Host.Core.run core (2 * units.length) { s with port := evs } = .next t ∧
      t.responses = s.responses ++ processAnswers h outputs ∧
      pseudoEvents h' s'.params.base (.process (outputs.map BitVec.toNat)) = some evs' ∧
      Host.Core.run core (2 * units.length) { s' with port := evs' } = .next t' ∧
      t'.responses = s'.responses ++ processAnswers h' units ∧
      t.engine.toGenerator = t'.engine.toGenerator

/-- Each of the nine command statements is one CMD write whose lanes decode to its command with its operands, and none where
an operand is outside its field's range; RD and WR are word accesses at the offsets of 10_state.md R33 (30_encoding.md
R87). That a WR of 2^32 or more emits nothing is the model's choice (log entry 15). -/
def Obligations.CommandStatementsEmitTheirWord : Prop :=
  ∀ base : Nat,
    (∀ n, n ≤ 511 → EmitsCommand base (.setlen n) (.setlen (BitVec.ofNat 9 n))) ∧
    (∀ n, 511 < n → stmtAccess base (.setlen n) = none) ∧
    (∀ a b, a ≤ 255 → b ≤ 255 →
      EmitsCommand base (.keywr a b) (.keywr (BitVec.ofNat 8 a) (BitVec.ofNat 8 b))) ∧
    (∀ a b, 255 < a ∨ 255 < b → stmtAccess base (.keywr a b) = none) ∧
    EmitsCommand base .init .init ∧ EmitsCommand base .next .next ∧
    (∀ n, n ≤ 65535 → EmitsCommand base (.proc n) (.proc (BitVec.ofNat 16 n))) ∧
    (∀ n, 65535 < n → stmtAccess base (.proc n) = none) ∧
    EmitsCommand base .reset .reset ∧
    (∀ n, n ≤ 255 → EmitsCommand base (.keyrd n) (.keyrd (BitVec.ofNat 8 n))) ∧
    (∀ n, 255 < n → stmtAccess base (.keyrd n) = none) ∧
    (∀ n, n ≤ 255 → EmitsCommand base (.srd n) (.srd (BitVec.ofNat 8 n))) ∧
    (∀ n, 255 < n → stmtAccess base (.srd n) = none) ∧
    EmitsCommand base .clrerr .clrerr ∧
    ∀ p ∈ [(Reg.cmd, 0x00), (Reg.status, 0x04), (Reg.result, 0x08), (Reg.keylen, 0x0C), (Reg.cursor, 0x10)],
      stmtAccess base (.rd p.1) = some (.read (base + p.2) 4) ∧
      (∀ n < 2 ^ 32, ∃ lanes, stmtAccess base (.wr p.1 n) = some (.write (base + p.2) lanes) ∧
        (wordOfLanes lanes).toNat = n ∧ lanes.length = 4) ∧
      ∀ n, 2 ^ 32 ≤ n → stmtAccess base (.wr p.1 n) = none
end

