-- ==== Sys2Proof/Laws/Decode.lean ====
section
/-! SUPPORT. The fields of a word and the word of its fields (30_encoding.md rules R80, R83), and the byte lanes
(20_memory.md rule R53). -/

namespace Sys2Proof

/-- Bit `i` of a packed word lies in DATA, IDX or OP (30_encoding.md R80). -/
theorem getElem_packWord (op idx : Byte) (data : U16) (i : Nat) (h : i < 32) :
    (packWord op idx data)[i] =
      if i < 16 then data.getLsbD i else if i < 24 then idx.getLsbD (i - 16) else op.getLsbD (i - 24) := by
  simp only [packWord, BitVec.getLsbD_append, ← BitVec.getLsbD_eq_getElem]
  split
  · rfl
  · rw [Nat.sub_sub]
    split <;> split <;> first | rfl | omega

@[simp] theorem opField_packWord (op idx : Byte) (data : U16) : opField (packWord op idx data) = op := by
  ext i hi
  rw [opField, BitVec.getElem_extractLsb', BitVec.getLsbD_eq_getElem (by omega), getElem_packWord,
    if_neg (by omega), if_neg (by omega), BitVec.getLsbD_eq_getElem (by omega)]
  congr 1
  omega

@[simp] theorem idxField_packWord (op idx : Byte) (data : U16) : idxField (packWord op idx data) = idx := by
  ext i hi
  rw [idxField, BitVec.getElem_extractLsb', BitVec.getLsbD_eq_getElem (by omega), getElem_packWord,
    if_neg (by omega), if_pos (by omega), BitVec.getLsbD_eq_getElem (by omega)]
  congr 1
  omega

@[simp] theorem dataField_packWord (op idx : Byte) (data : U16) : dataField (packWord op idx data) = data := by
  ext i hi
  rw [dataField, BitVec.getElem_extractLsb', BitVec.getLsbD_eq_getElem (by omega), getElem_packWord,
    if_pos (by omega), BitVec.getLsbD_eq_getElem (by omega)]
  congr 1
  omega

/-- A word is packed from its fields (30_encoding.md R80). -/
theorem packWord_fields (w : Word) : packWord (opField w) (idxField w) (dataField w) = w := by
  ext i hi
  rw [getElem_packWord, opField, idxField, dataField]
  split
  · rw [BitVec.getLsbD_extractLsb', decide_eq_true (by omega), Bool.true_and, Nat.zero_add,
      BitVec.getLsbD_eq_getElem hi]
  · split
    · rw [BitVec.getLsbD_extractLsb', decide_eq_true (by omega), Bool.true_and, Nat.add_sub_cancel' (by omega),
        BitVec.getLsbD_eq_getElem hi]
    · rw [BitVec.getLsbD_extractLsb', decide_eq_true (by omega), Bool.true_and, Nat.add_sub_cancel' (by omega),
        BitVec.getLsbD_eq_getElem hi]

@[simp] theorem lenOperand_setWidth (len : U9) : lenOperand (len.setWidth 16) = len := by
  ext i hi
  interval_cases i <;> simp [lenOperand]

@[simp] theorem byteOperand_setWidth (b : Byte) : byteOperand (b.setWidth 16) = b := by
  ext i hi
  interval_cases i <;> simp [byteOperand]

/-- DATA of a SETLEN word is its length operand (30_encoding.md R81, format L). -/
theorem setWidth_lenOperand {data : U16} (h : data.extractLsb' 9 7 = 0) : (lenOperand data).setWidth 16 = data := by
  have hbit : ∀ k, k < 7 → data.getLsbD (9 + k) = false := fun k hk => by
    simpa [BitVec.getLsbD_extractLsb', hk] using congrArg (·.getLsbD k) h
  ext i hi
  simp only [lenOperand, BitVec.getElem_setWidth, BitVec.getLsbD_extractLsb', Nat.zero_add]
  by_cases h9 : i < 9
  · simp [h9, BitVec.getLsbD_eq_getElem hi]
  · have := hbit (i - 9) (by omega)
    rw [Nat.add_sub_cancel' (by omega), BitVec.getLsbD_eq_getElem hi] at this
    simp [h9, this]

/-- DATA of a KEYWR word is its byte operand (30_encoding.md R81, format B). -/
theorem setWidth_byteOperand {data : U16} (h : data.extractLsb' 8 8 = 0) : (byteOperand data).setWidth 16 = data := by
  have hbit : ∀ k, k < 8 → data.getLsbD (8 + k) = false := fun k hk => by
    simpa [BitVec.getLsbD_extractLsb', hk] using congrArg (·.getLsbD k) h
  ext i hi
  simp only [byteOperand, BitVec.getElem_setWidth, BitVec.getLsbD_extractLsb', Nat.zero_add]
  by_cases h8 : i < 8
  · simp [h8, BitVec.getLsbD_eq_getElem hi]
  · have := hbit (i - 8) (by omega)
    rw [Nat.add_sub_cancel' (by omega), BitVec.getLsbD_eq_getElem hi] at this
    simp [h8, this]

theorem acceptIf_eq_ok_iff (zero : Bool) (op : Byte) (i j : Instr) :
    acceptIf zero op i = .ok j ↔ zero = true ∧ i = j := by
  cases zero <;> simp [acceptIf]

/-- The lanes of a word carry the word (20_memory.md R53). -/
@[simp] theorem wordOfLanes_lanesOfWord (w : Word) : wordOfLanes (lanesOfWord w) = w := by
  ext i hi
  simp only [lanesOfWord, wordOfLanes, BitVec.getElem_or, BitVec.getElem_shiftLeft, BitVec.getElem_setWidth,
    BitVec.getLsbD_extractLsb']
  interval_cases i <;> simp

@[simp] theorem lanesOfWord_length (w : Word) : (lanesOfWord w).length = 4 := rfl

end Sys2Proof
end

