-- ==== Sys2Proof/Laws/State.lean ====
section
/-! SUPPORT. One lemma per field and update of Engine and State, each true by rfl. -/

namespace Sys2Proof.Machine

section Engine

variable (e : Engine) (g : Generator) (k : Table) (l : U9) (m : Mode) (c : BitVec 4) (v : U16)

@[simp] theorem Engine.setGenerator_S : (e.setGenerator g).S = g.S := rfl
@[simp] theorem Engine.setGenerator_I : (e.setGenerator g).I = g.I := rfl
@[simp] theorem Engine.setGenerator_J : (e.setGenerator g).J = g.J := rfl
@[simp] theorem Engine.setGenerator_toGenerator : (e.setGenerator g).toGenerator = g := rfl
@[simp] theorem Engine.setGenerator_K : (e.setGenerator g).K = e.K := rfl
@[simp] theorem Engine.setGenerator_KL : (e.setGenerator g).KL = e.KL := rfl
@[simp] theorem Engine.setGenerator_KB : (e.setGenerator g).KB = e.KB := rfl
@[simp] theorem Engine.setGenerator_KBL : (e.setGenerator g).KBL = e.KBL := rfl
@[simp] theorem Engine.setGenerator_MODE : (e.setGenerator g).MODE = e.MODE := rfl
@[simp] theorem Engine.setGenerator_ERR : (e.setGenerator g).ERR = e.ERR := rfl
@[simp] theorem Engine.setGenerator_RESULT : (e.setGenerator g).RESULT = e.RESULT := rfl

@[simp] theorem Engine.setKey_S : (e.setKey k l).S = e.S := rfl
@[simp] theorem Engine.setKey_I : (e.setKey k l).I = e.I := rfl
@[simp] theorem Engine.setKey_J : (e.setKey k l).J = e.J := rfl
@[simp] theorem Engine.setKey_toGenerator : (e.setKey k l).toGenerator = e.toGenerator := rfl
@[simp] theorem Engine.setKey_K : (e.setKey k l).K = k := rfl
@[simp] theorem Engine.setKey_KL : (e.setKey k l).KL = l := rfl
@[simp] theorem Engine.setKey_KB : (e.setKey k l).KB = e.KB := rfl
@[simp] theorem Engine.setKey_KBL : (e.setKey k l).KBL = e.KBL := rfl
@[simp] theorem Engine.setKey_MODE : (e.setKey k l).MODE = e.MODE := rfl
@[simp] theorem Engine.setKey_ERR : (e.setKey k l).ERR = e.ERR := rfl
@[simp] theorem Engine.setKey_RESULT : (e.setKey k l).RESULT = e.RESULT := rfl

@[simp] theorem Engine.setKB_S : (e.setKB k).S = e.S := rfl
@[simp] theorem Engine.setKB_I : (e.setKB k).I = e.I := rfl
@[simp] theorem Engine.setKB_J : (e.setKB k).J = e.J := rfl
@[simp] theorem Engine.setKB_toGenerator : (e.setKB k).toGenerator = e.toGenerator := rfl
@[simp] theorem Engine.setKB_K : (e.setKB k).K = e.K := rfl
@[simp] theorem Engine.setKB_KL : (e.setKB k).KL = e.KL := rfl
@[simp] theorem Engine.setKB_KB : (e.setKB k).KB = k := rfl
@[simp] theorem Engine.setKB_KBL : (e.setKB k).KBL = e.KBL := rfl
@[simp] theorem Engine.setKB_MODE : (e.setKB k).MODE = e.MODE := rfl
@[simp] theorem Engine.setKB_ERR : (e.setKB k).ERR = e.ERR := rfl
@[simp] theorem Engine.setKB_RESULT : (e.setKB k).RESULT = e.RESULT := rfl

@[simp] theorem Engine.setKBL_S : (e.setKBL l).S = e.S := rfl
@[simp] theorem Engine.setKBL_I : (e.setKBL l).I = e.I := rfl
@[simp] theorem Engine.setKBL_J : (e.setKBL l).J = e.J := rfl
@[simp] theorem Engine.setKBL_toGenerator : (e.setKBL l).toGenerator = e.toGenerator := rfl
@[simp] theorem Engine.setKBL_K : (e.setKBL l).K = e.K := rfl
@[simp] theorem Engine.setKBL_KL : (e.setKBL l).KL = e.KL := rfl
@[simp] theorem Engine.setKBL_KB : (e.setKBL l).KB = e.KB := rfl
@[simp] theorem Engine.setKBL_KBL : (e.setKBL l).KBL = l := rfl
@[simp] theorem Engine.setKBL_MODE : (e.setKBL l).MODE = e.MODE := rfl
@[simp] theorem Engine.setKBL_ERR : (e.setKBL l).ERR = e.ERR := rfl
@[simp] theorem Engine.setKBL_RESULT : (e.setKBL l).RESULT = e.RESULT := rfl

@[simp] theorem Engine.setMODE_S : (e.setMODE m).S = e.S := rfl
@[simp] theorem Engine.setMODE_I : (e.setMODE m).I = e.I := rfl
@[simp] theorem Engine.setMODE_J : (e.setMODE m).J = e.J := rfl
@[simp] theorem Engine.setMODE_toGenerator : (e.setMODE m).toGenerator = e.toGenerator := rfl
@[simp] theorem Engine.setMODE_K : (e.setMODE m).K = e.K := rfl
@[simp] theorem Engine.setMODE_KL : (e.setMODE m).KL = e.KL := rfl
@[simp] theorem Engine.setMODE_KB : (e.setMODE m).KB = e.KB := rfl
@[simp] theorem Engine.setMODE_KBL : (e.setMODE m).KBL = e.KBL := rfl
@[simp] theorem Engine.setMODE_MODE : (e.setMODE m).MODE = m := rfl
@[simp] theorem Engine.setMODE_ERR : (e.setMODE m).ERR = e.ERR := rfl
@[simp] theorem Engine.setMODE_RESULT : (e.setMODE m).RESULT = e.RESULT := rfl

@[simp] theorem Engine.setERR_S : (e.setERR c).S = e.S := rfl
@[simp] theorem Engine.setERR_I : (e.setERR c).I = e.I := rfl
@[simp] theorem Engine.setERR_J : (e.setERR c).J = e.J := rfl
@[simp] theorem Engine.setERR_toGenerator : (e.setERR c).toGenerator = e.toGenerator := rfl
@[simp] theorem Engine.setERR_K : (e.setERR c).K = e.K := rfl
@[simp] theorem Engine.setERR_KL : (e.setERR c).KL = e.KL := rfl
@[simp] theorem Engine.setERR_KB : (e.setERR c).KB = e.KB := rfl
@[simp] theorem Engine.setERR_KBL : (e.setERR c).KBL = e.KBL := rfl
@[simp] theorem Engine.setERR_MODE : (e.setERR c).MODE = e.MODE := rfl
@[simp] theorem Engine.setERR_ERR : (e.setERR c).ERR = c := rfl
@[simp] theorem Engine.setERR_RESULT : (e.setERR c).RESULT = e.RESULT := rfl

@[simp] theorem Engine.setRESULT_S : (e.setRESULT v).S = e.S := rfl
@[simp] theorem Engine.setRESULT_I : (e.setRESULT v).I = e.I := rfl
@[simp] theorem Engine.setRESULT_J : (e.setRESULT v).J = e.J := rfl
@[simp] theorem Engine.setRESULT_toGenerator : (e.setRESULT v).toGenerator = e.toGenerator := rfl
@[simp] theorem Engine.setRESULT_K : (e.setRESULT v).K = e.K := rfl
@[simp] theorem Engine.setRESULT_KL : (e.setRESULT v).KL = e.KL := rfl
@[simp] theorem Engine.setRESULT_KB : (e.setRESULT v).KB = e.KB := rfl
@[simp] theorem Engine.setRESULT_KBL : (e.setRESULT v).KBL = e.KBL := rfl
@[simp] theorem Engine.setRESULT_MODE : (e.setRESULT v).MODE = e.MODE := rfl
@[simp] theorem Engine.setRESULT_ERR : (e.setRESULT v).ERR = e.ERR := rfl
@[simp] theorem Engine.setRESULT_RESULT : (e.setRESULT v).RESULT = v := rfl

end Engine

section AfterPor

variable (S K : Table)

@[simp] theorem Engine.afterPor_S : (Engine.afterPor S K).S = S := rfl
@[simp] theorem Engine.afterPor_I : (Engine.afterPor S K).I = 0 := rfl
@[simp] theorem Engine.afterPor_J : (Engine.afterPor S K).J = 0 := rfl
@[simp] theorem Engine.afterPor_K : (Engine.afterPor S K).K = K := rfl
@[simp] theorem Engine.afterPor_KL : (Engine.afterPor S K).KL = 0 := rfl
@[simp] theorem Engine.afterPor_KB : (Engine.afterPor S K).KB = Vector.replicate 256 0 := rfl
@[simp] theorem Engine.afterPor_KBL : (Engine.afterPor S K).KBL = 0 := rfl
@[simp] theorem Engine.afterPor_MODE : (Engine.afterPor S K).MODE = .uninit := rfl
@[simp] theorem Engine.afterPor_ERR : (Engine.afterPor S K).ERR = 0 := rfl
@[simp] theorem Engine.afterPor_RESULT : (Engine.afterPor S K).RESULT = 0 := rfl

end AfterPor

section State

variable (s : State) (e : Engine) (p : List Event) (h : Nat) (a : Answer)

@[simp] theorem State.setEngine_engine : (s.setEngine e).engine = e := rfl
@[simp] theorem State.setEngine_params : (s.setEngine e).params = s.params := rfl
@[simp] theorem State.setEngine_port : (s.setEngine e).port = s.port := rfl
@[simp] theorem State.setEngine_responses : (s.setEngine e).responses = s.responses := rfl
@[simp] theorem State.setEngine_porDraws : (s.setEngine e).porDraws = s.porDraws := rfl

@[simp] theorem State.setPort_engine : (s.setPort p).engine = s.engine := rfl
@[simp] theorem State.setPort_params : (s.setPort p).params = s.params := rfl
@[simp] theorem State.setPort_port : (s.setPort p).port = p := rfl
@[simp] theorem State.setPort_responses : (s.setPort p).responses = s.responses := rfl
@[simp] theorem State.setPort_porDraws : (s.setPort p).porDraws = s.porDraws := rfl

@[simp] theorem State.respond_engine : (s.respond h a).engine = s.engine := rfl
@[simp] theorem State.respond_params : (s.respond h a).params = s.params := rfl
@[simp] theorem State.respond_port : (s.respond h a).port = s.port := rfl
@[simp] theorem State.respond_responses : (s.respond h a).responses = s.responses ++ [⟨h, a⟩] := rfl
@[simp] theorem State.respond_porDraws : (s.respond h a).porDraws = s.porDraws := rfl

@[simp] theorem State.powerOnReset_engine : s.powerOnReset.engine =
    Engine.afterPor (tableOf (Config.porPermutation s.porDraws)) (tableOf (Config.porKey s.porDraws)) := rfl
@[simp] theorem State.powerOnReset_params : s.powerOnReset.params = s.params := rfl
@[simp] theorem State.powerOnReset_port : s.powerOnReset.port = s.port := rfl
@[simp] theorem State.powerOnReset_responses : s.powerOnReset.responses = s.responses := rfl
@[simp] theorem State.powerOnReset_porDraws : s.powerOnReset.porDraws = s.porDraws + 1 := rfl

end State

end Sys2Proof.Machine
end

