-- ==== Sys2Proof/Laws/Table.lean ====
section
/-! SUPPORT. Read after write on a table of entries, swaps, and permutations (20_memory.md rule R64; 10_state.md rule
R22). -/

namespace Sys2Proof.Machine

theorem readEntry_writeEntry (t : Table) (i v n : Byte) :
    readEntry (writeEntry t i v) n = if n = i then v else readEntry t n := by
  unfold readEntry writeEntry
  rw [Vector.getElem_set]
  simp only [BitVec.toNat_inj, eq_comm]

@[simp] theorem readEntry_writeEntry_same (t : Table) (i v : Byte) : readEntry (writeEntry t i v) i = v := by
  simp [readEntry_writeEntry]

theorem readEntry_writeEntry_other (t : Table) {i n : Byte} (v : Byte) (h : n ≠ i) :
    readEntry (writeEntry t i v) n = readEntry t n := by
  simp [readEntry_writeEntry, h]

@[simp] theorem readEntry_tableOf (f : Byte → Byte) (n : Byte) : readEntry (tableOf f) n = f n := by
  simp [readEntry, tableOf]

@[simp] theorem readEntry_identityTable (n : Byte) : readEntry identityTable n = n := by
  simp [identityTable]

@[simp] theorem readEntry_replicate (v n : Byte) : readEntry (Vector.replicate 256 v) n = v := by
  simp [readEntry]

/-- Two tables that read alike at every index are equal. -/
theorem table_ext {t u : Table} (h : ∀ n, readEntry t n = readEntry u n) : t = u := by
  apply Vector.ext
  intro i hi
  simpa [readEntry, Nat.mod_eq_of_lt hi] using h (BitVec.ofNat 8 i)

/-- What a swap leaves at each index. -/
theorem readEntry_swapEntries (t : Table) (a b n : Byte) :
    readEntry (swapEntries t a b) n =
      if n = b then readEntry t a else if n = a then readEntry t b else readEntry t n := by
  simp [swapEntries, readEntry_writeEntry]

/-- A swap reads the old table through the exchange of the two indices. -/
theorem readEntry_swapEntries_swap (t : Table) (a b n : Byte) :
    readEntry (swapEntries t a b) n = readEntry t (Equiv.swap a b n) := by
  rw [readEntry_swapEntries, Equiv.swap_apply_def]
  split <;> split <;> simp_all

/-- "When a = b it leaves S unchanged" (00_scope.md R10). -/
@[simp] theorem swapEntries_self (t : Table) (a : Byte) : swapEntries t a a = t := by
  apply table_ext
  simp [readEntry_swapEntries_swap]

/-- A swap undoes itself. -/
@[simp] theorem swapEntries_swapEntries (t : Table) (a b : Byte) : swapEntries (swapEntries t a b) a b = t := by
  apply table_ext
  simp [readEntry_swapEntries_swap]

/-- The identity table is a permutation. -/
theorem identityTable_isPermutation : IsPermutation identityTable := by
  intro v
  simp

/-- A swap keeps a permutation. -/
theorem IsPermutation.swapEntries {t : Table} (h : IsPermutation t) (a b : Byte) :
    IsPermutation (swapEntries t a b) := by
  intro v
  simpa [readEntry_swapEntries_swap] using (Equiv.swap a b).existsUnique_congr_right.mpr (h v)

end Sys2Proof.Machine
end

