-- ==== Sys2Proof/Laws/Ops.lean ====
section
/-! SUPPORT. One lemma per shared operation of Machine/Ops.lean: everything it can do. -/

namespace Sys2Proof.Machine

/-- Raising an error always goes on, and writes ERR by the sticky rule alone (60_exceptions.md R207, R208). -/
theorem raise_eq_next_iff (err : CommandError) (s t : State) :
    raise err s = .next t ↔ t = s.setEngine (s.engine.setERR (recordError s.engine.ERR err.code)) := by
  simp [raise, eq_comm]

theorem clearError_eq_next_iff (s t : State) : clearError s = .next t ↔ t = s.setEngine (s.engine.setERR 0) := by
  simp [clearError, eq_comm]

/-- The first error is recorded (60_exceptions.md R208). -/
@[simp] theorem recordError_zero (c : BitVec 4) : recordError 0 c = c := by simp [recordError]

/-- A recorded error is kept (60_exceptions.md R208). -/
theorem recordError_of_ne_zero {err : BitVec 4} (h : err ≠ 0) (c : BitVec 4) : recordError err c = err :=
  if_neg h

theorem whenKeyed_keyed {s : State} (h : s.engine.MODE = .keyed) (f : Engine → Engine) :
    whenKeyed f s = .next (s.setEngine (f s.engine)) := by
  simp [whenKeyed, h]

theorem whenKeyed_uninit {s : State} (h : s.engine.MODE = .uninit) (f : Engine → Engine) :
    whenKeyed f s = raise .notKeyed s := by
  simp [whenKeyed, h]

/-- All that a command that needs a key can do (60_exceptions.md R203). -/
theorem whenKeyed_eq_next_iff (f : Engine → Engine) (s t : State) :
    whenKeyed f s = .next t ↔
      (s.engine.MODE = .uninit ∧ t = s.setEngine (s.engine.setERR (recordError s.engine.ERR 2))) ∨
      (s.engine.MODE = .keyed ∧ t = s.setEngine (f s.engine)) := by
  cases h : s.engine.MODE with
  | uninit => simp [whenKeyed_uninit h, raise_eq_next_iff, CommandError.code]
  | keyed => simp [whenKeyed_keyed h, eq_comm]

theorem lengthTooLong_eq_true_iff (len : U9) : lengthTooLong len = true ↔ 256 < len.toNat := decide_eq_true_iff

@[simp] theorem scheduleRun_zero (E : Nat → Byte) : scheduleRun E 0 = (identityTable, 0) := rfl

theorem scheduleRun_succ (E : Nat → Byte) (n : Nat) :
    scheduleRun E (n + 1) = scheduleIteration E (scheduleRun E n) n := by
  simp [scheduleRun, List.range_succ]

@[simp] theorem keySchedule_I (K : Table) (L : U9) : (keySchedule K L).I = 0 := rfl
@[simp] theorem keySchedule_J (K : Table) (L : U9) : (keySchedule K L).J = 0 := rfl
theorem keySchedule_S (K : Table) (L : U9) : (keySchedule K L).S = (scheduleRun (extendedKey K L) 256).1 := rfl

theorem extendedKey_of_ne_zero (K : Table) {L : U9} (h : L ≠ 0) (i : Nat) :
    extendedKey K L i = readEntry K (BitVec.ofNat 8 (i % L.toNat)) :=
  if_neg h

@[simp] theorem Generator.step_I (g : Generator) : g.step.I = g.I + 1 := rfl
@[simp] theorem Generator.step_J (g : Generator) : g.step.J = g.J + readEntry g.S (g.I + 1) := rfl
theorem Generator.step_S (g : Generator) :
    g.step.S = swapEntries g.S (g.I + 1) (g.J + readEntry g.S (g.I + 1)) := rfl
@[simp] theorem Generator.steps_zero (g : Generator) : g.steps 0 = g := rfl
theorem Generator.steps_succ (g : Generator) (n : Nat) : g.steps (n + 1) = (g.steps n).step := rfl

section Effects

variable (e : Engine) (f : U16 → U16)

@[simp] theorem Engine.keystream_toGenerator : (e.keystream f).toGenerator = e.toGenerator.step := by
  simp [Engine.keystream]
@[simp] theorem Engine.keystream_K : (e.keystream f).K = e.K := by simp [Engine.keystream]
@[simp] theorem Engine.keystream_KL : (e.keystream f).KL = e.KL := by simp [Engine.keystream]
@[simp] theorem Engine.keystream_KB : (e.keystream f).KB = e.KB := by simp [Engine.keystream]
@[simp] theorem Engine.keystream_KBL : (e.keystream f).KBL = e.KBL := by simp [Engine.keystream]
@[simp] theorem Engine.keystream_MODE : (e.keystream f).MODE = e.MODE := by simp [Engine.keystream]
@[simp] theorem Engine.keystream_ERR : (e.keystream f).ERR = e.ERR := by simp [Engine.keystream]
@[simp] theorem Engine.keystream_RESULT : (e.keystream f).RESULT = f (zext16 e.toGenerator.stepByte) := by
  simp [Engine.keystream]

@[simp] theorem Engine.rekey_toGenerator : e.rekey.toGenerator = keySchedule e.K e.KL := by simp [Engine.rekey]
@[simp] theorem Engine.rekey_K : e.rekey.K = e.K := by simp [Engine.rekey]
@[simp] theorem Engine.rekey_KL : e.rekey.KL = e.KL := by simp [Engine.rekey]
@[simp] theorem Engine.rekey_KB : e.rekey.KB = e.KB := by simp [Engine.rekey]
@[simp] theorem Engine.rekey_KBL : e.rekey.KBL = e.KBL := by simp [Engine.rekey]
@[simp] theorem Engine.rekey_MODE : e.rekey.MODE = e.MODE := by simp [Engine.rekey]
@[simp] theorem Engine.rekey_ERR : e.rekey.ERR = e.ERR := by simp [Engine.rekey]
@[simp] theorem Engine.rekey_RESULT : e.rekey.RESULT = e.RESULT := by simp [Engine.rekey]

@[simp] theorem Engine.construct_toGenerator : e.construct.toGenerator = keySchedule e.KB e.KBL := by simp [Engine.construct]
@[simp] theorem Engine.construct_K : e.construct.K = e.KB := by simp [Engine.construct]
@[simp] theorem Engine.construct_KL : e.construct.KL = e.KBL := by simp [Engine.construct]
@[simp] theorem Engine.construct_KB : e.construct.KB = e.KB := by simp [Engine.construct]
@[simp] theorem Engine.construct_KBL : e.construct.KBL = e.KBL := by simp [Engine.construct]
@[simp] theorem Engine.construct_MODE : e.construct.MODE = .keyed := by simp [Engine.construct]
@[simp] theorem Engine.construct_ERR : e.construct.ERR = e.ERR := by simp [Engine.construct]
@[simp] theorem Engine.construct_RESULT : e.construct.RESULT = e.RESULT := by simp [Engine.construct]

end Effects

end Sys2Proof.Machine
end

