-- ==== Sys2Proof/Laws/Bus.lean ====
section
/-! SUPPORT. The window and the service of one event (20_memory.md rules R51 to R57): one lemma per
operation of Machine/Bus.lean. -/

namespace Sys2Proof

namespace Machine

theorem windowOffset_eq_some_iff (base addr off : Nat) :
    windowOffset base addr = some off ↔ addr = base + off ∧ off < 32 := by
  unfold windowOffset Config.windowBytes
  split <;> simp <;> omega

theorem windowOffset_eq_none_iff (base addr : Nat) :
    windowOffset base addr = none ↔ addr < base ∨ base + 32 ≤ addr := by
  unfold windowOffset Config.windowBytes
  split <;> simp <;> omega

@[simp] theorem windowOffset_base (base : Nat) : windowOffset base base = some 0 := by
  simp [windowOffset_eq_some_iff]

theorem admitted_eq_true_iff (off n : Nat) : admitted off n = true ↔ n = 4 ∧ off % 4 = 0 ∧ off ≤ 0x1C := by
  simp [admitted, and_assoc]

theorem answered_eq_next_iff (h : Nat) (a : Answer) (o : Host.Outcome State Fault Refusal) (t : State) :
    answered h a o = .next t ↔ ∃ u, o = .next u ∧ t = u.respond h a := by
  cases o <;> simp [answered, eq_comm]

theorem fromHost_of_lt {h : Nat} {s : State} (hh : h < s.params.nHosts) (o : Host.Outcome State Fault Refusal) :
    fromHost h s o = o :=
  if_pos hh

theorem fromHost_eq_next_iff (h : Nat) (s t : State) (o : Host.Outcome State Fault Refusal) :
    fromHost h s o = .next t ↔ h < s.params.nHosts ∧ o = .next t := by
  unfold fromHost
  split <;> simp_all

/-- A word is one of the nine commands or raises IllegalCommand (20_memory.md R66). -/
theorem executeWord_cases (w : Word) (s : State) :
    (∃ i, decode w = .ok i ∧ executeWord w s = exec i s) ∨
      (∃ r, decode w = .error r ∧ executeWord w s = raise .illegalCommand s) := by
  unfold executeWord
  cases decode w <;> simp [execIllegal]

/-- All that a write can do (20_memory.md R51, R52, R66). -/
theorem serveWrite_cases (host addr : Nat) (lanes : List Byte) (s : State) :
    (windowOffset s.params.base addr = none ∧ serveWrite host addr lanes s = .next (s.respond host .notDecoded)) ∨
      ∃ off, windowOffset s.params.base addr = some off ∧
        ((admitted off lanes.length = false ∧ serveWrite host addr lanes s = .next (s.respond host .busError)) ∨
          (admitted off lanes.length = true ∧
            serveWrite host addr lanes s = answered host .written (writeReg off (wordOfLanes lanes) s))) := by
  unfold serveWrite
  cases windowOffset s.params.base addr with
  | none => simp
  | some off => cases h : admitted off lanes.length <;> simp [h]

theorem step_nil {s : State} (h : s.port = []) : step s = .next s := by
  simp [step, serveNext, h]

theorem step_cons {s : State} {ev : Event} {rest : List Event} (h : s.port = ev :: rest) :
    step s = serve ev (s.setPort rest) := by
  simp [step, serveNext, h]

section Step

variable {s : State} {rest : List Event} {h : Nat}

/-- A step on a host's access (20_memory.md R52). -/
theorem step_access {a : Access} (hp : s.port = .access h a :: rest) (hh : h < s.params.nHosts) :
    step s = serveAccess h a (s.setPort rest) := by
  rw [step_cons hp]
  exact if_pos hh

/-- A step on a held CMD write the platform times out (70_reset_and_hazards.md R240). -/
theorem step_timedOutCommand {w : Word} (hp : s.port = .timedOutCommand h w :: rest) (hh : h < s.params.nHosts) :
    step s = answered h .timedOut (executeWord w (s.setPort rest)) := by
  rw [step_cons hp]
  exact if_pos hh

/-- A step on a power-on reset during a command (70_reset_and_hazards.md R231). -/
theorem step_resetDuringCommand {w : Word} (hp : s.port = .resetDuringCommand h w :: rest)
    (hh : h < s.params.nHosts) :
    step s = .next ((s.setPort rest).powerOnReset.respond h .abandoned) := by
  rw [step_cons hp]
  exact if_pos hh

/-- A step on a power-on reset (70_reset_and_hazards.md R230). -/
theorem step_powerOnReset (hp : s.port = .powerOnReset :: rest) :
    step s = .next (s.setPort rest).powerOnReset := by
  rw [step_cons hp]
  rfl

/-- A step on an event of a host the block does not have stops (log entry 7). -/
theorem step_access_noSuchHost {a : Access} (hp : s.port = .access h a :: rest) (hh : s.params.nHosts ≤ h) :
    step s = .fault (.noSuchHost h) := by
  rw [step_cons hp]
  exact if_neg (Nat.not_lt.mpr hh)

end Step

end Machine

end Sys2Proof
end

