-- ==== Sys2Proof/Laws/PerInstr.lean ====
section
/-! SUPPORT. Statements made once per instruction. `MatchMask`: the encoding of an instruction has exactly the fixed bits
of its row of the opcode table (30_encoding.md rules R81, R82). -/

namespace Sys2Proof.Laws.MatchMask

/-- The word of `i` is selected by the row of `i` (30_encoding.md R82). -/
def Statement (i : Instr) : Prop := i.row.selects (encode i) = true

theorem setlen (len : U9) : Statement (.setlen len) := by
  simp only [Statement, OpcodeRow.selects, Instr.row, encode, beq_iff_eq]
  ext i hi
  rw [BitVec.getElem_and, getElem_packWord]
  interval_cases i <;> simp

theorem keywr (idx byte : Byte) : Statement (.keywr idx byte) := by
  simp only [Statement, OpcodeRow.selects, Instr.row, encode, beq_iff_eq]
  ext i hi
  rw [BitVec.getElem_and, getElem_packWord]
  interval_cases i <;> simp

theorem init : Statement .init := by unfold Statement; decide
theorem next : Statement .next := by unfold Statement; decide

theorem proc (unit : U16) : Statement (.proc unit) := by
  simp only [Statement, OpcodeRow.selects, Instr.row, encode, beq_iff_eq]
  ext i hi
  rw [BitVec.getElem_and, getElem_packWord]
  interval_cases i <;> simp

theorem reset : Statement .reset := by unfold Statement; decide

theorem keyrd (idx : Byte) : Statement (.keyrd idx) := by
  simp only [Statement, OpcodeRow.selects, Instr.row, encode, beq_iff_eq]
  ext i hi
  rw [BitVec.getElem_and, getElem_packWord]
  interval_cases i <;> simp

theorem srd (idx : Byte) : Statement (.srd idx) := by
  simp only [Statement, OpcodeRow.selects, Instr.row, encode, beq_iff_eq]
  ext i hi
  rw [BitVec.getElem_and, getElem_packWord]
  interval_cases i <;> simp

theorem clrerr : Statement .clrerr := by unfold Statement; decide

end Sys2Proof.Laws.MatchMask
end

