-- ==== Sys2Proof/Laws/Run.lean ====
section
/-! SUPPORT. Runs of the machine, `Host.Core.run core` (00_scope.md rule R12): one step at a time, in two parts, and the
induction every invariant of a run goes through. -/

namespace Sys2Proof.Machine

/-- One step of a run that goes on, for any machine. -/
theorem core_run_succ (M : Host.Core) {s t : M.State} (h : M.step s = .next t) (k : Nat) :
    M.run (k + 1) s = M.run k t := by
  rw [Host.Core.run, h]

/-- The first step of a run that ended in a next state, for any machine. -/
theorem core_run_succ_eq_next (M : Host.Core) {s t : M.State} {k : Nat} (h : M.run (k + 1) s = .next t) :
    ∃ u : M.State, M.step s = .next u ∧ M.run k u = .next t := by
  rw [Host.Core.run] at h
  cases hs : M.step s with
  | next u => exact ⟨u, rfl, by rwa [hs] at h⟩
  | fault r => simp [hs] at h
  | refused r => simp [hs] at h

theorem run_zero (s : State) : Host.Core.run core 0 s = .next s := rfl

theorem run_succ_of_step {s t : State} (h : step s = .next t) (k : Nat) :
    Host.Core.run core (k + 1) s = Host.Core.run core k t :=
  core_run_succ core h k

/-- The first step of a run that ended in a next state. -/
theorem run_succ_eq_next {s t : State} {k : Nat} (h : Host.Core.run core (k + 1) s = .next t) :
    ∃ u : State, step s = .next u ∧ Host.Core.run core k u = .next t :=
  core_run_succ_eq_next core h

/-- A run in two parts. -/
theorem run_add {s t : State} {k : Nat} (h : Host.Core.run core k s = .next t) (n : Nat) :
    Host.Core.run core (k + n) s = Host.Core.run core n t := by
  induction k generalizing s with
  | zero =>
    rw [run_zero] at h
    cases h
    rw [Nat.zero_add]
  | succ k ih =>
    obtain ⟨u, hu, h⟩ := run_succ_eq_next h
    rw [Nat.succ_add, run_succ_of_step hu, ih h]

/-- What every step keeps, every run keeps. -/
theorem run_invariant {P : State → Prop} (hstep : ∀ s t, P s → step s = .next t → P t) {s t : State} {k : Nat}
    (hs : P s) (h : Host.Core.run core k s = .next t) : P t := by
  induction k generalizing s with
  | zero =>
    rw [run_zero] at h
    cases h
    exact hs
  | succ k ih =>
    obtain ⟨u, hu, h⟩ := run_succ_eq_next h
    exact ih (hstep _ _ hs hu) h

/-- With nothing waiting, the next step keeps the key. -/
theorem nextKeepsKey_nil {s : State} (h : s.port = []) : s.NextKeepsKey := by
  simp [State.NextKeepsKey, h]

/-- The event the next step serves is the first at the port. -/
theorem nextKeepsKey_cons {s : State} {ev : Event} {rest : List Event} (h : s.port = ev :: rest) :
    s.NextKeepsKey ↔ ev.keepsKey s := by
  simp [State.NextKeepsKey, h]

end Sys2Proof.Machine
end

