-- ==== Sys2Proof/Tests/Slice0.lean ====
section
/-! SUPPORT. The author's own tests: ill-formed statements refused, words written out from the encodings of
30_encoding.md, one step at a time on small states with expected values from 95_test_vectors.md, and for every
obligation with hypotheses a witness that meets them. -/

namespace Sys2Proof.Tests

open Sys2Proof.Machine

/-! ### WellFormed: each check refuses (30_encoding.md R87, R88) -/

theorem test_setlen_512_refused : (Stmt.setlen 512).toInstr = none := by decide
theorem test_keywr_index_256_refused : (Stmt.keywr 256 0).toInstr = none := by decide
theorem test_keywr_byte_256_refused : (Stmt.keywr 0 256).toInstr = none := by decide
theorem test_proc_65536_refused : (Stmt.proc 65536).toInstr = none := by decide
theorem test_keyrd_256_refused : (Stmt.keyrd 256).toInstr = none := by decide
theorem test_srd_256_refused : (Stmt.srd 256).toInstr = none := by decide
theorem test_wr_33_bits_refused : (Stmt.wr .cmd (2 ^ 32)).wf = false := by decide
theorem test_loadkey_empty_refused : (Pseudo.loadkey []).wf = false := by decide
theorem test_newkey_wide_code_refused : (Pseudo.newkey [256]).wf = false := by decide
theorem test_loadkey_257_codes_refused : (Pseudo.loadkey (List.replicate 257 0)).wf = false := by decide +kernel
theorem test_process_wide_unit_refused : (Pseudo.process [65536]).wf = false := by decide
theorem test_getkey_257_refused : (Pseudo.getkey 257).wf = false := by decide

/-! ### Decoding: every row's word, bit by bit from the layouts of 30_encoding.md R81 -/

/-- `oooooooo zzzzzzzz zzzzzzzL LLLLLLLL`, OP 0x01, len 0b100000011 = 259. -/
theorem test_decode_setlen : decode 0b00000001_00000000_0000000_100000011 = .ok (.setlen 259) := by decide
/-- `oooooooo XXXXXXXX zzzzzzzz BBBBBBBB`, OP 0x02, V1e. -/
theorem test_decode_keywr : decode 0b00000010_00000101_00000000_11111111 = .ok (.keywr 5 0xFF) := by decide
theorem test_decode_init : decode 0b00000011_00000000_00000000_00000000 = .ok .init := by decide
theorem test_decode_next : decode 0b00000100_00000000_00000000_00000000 = .ok .next := by decide
/-- `oooooooo zzzzzzzz UUUUUUUU UUUUUUUU`, OP 0x05, P5. -/
theorem test_decode_proc : decode 0b00000101_00000000_00100110_00111010 = .ok (.proc 0x263A) := by decide
theorem test_decode_reset : decode 0b00000110_00000000_00000000_00000000 = .ok .reset := by decide
/-- `oooooooo XXXXXXXX zzzzzzzz zzzzzzzz`, OP 0x07, V15a. -/
theorem test_decode_keyrd : decode 0b00000111_00000001_00000000_00000000 = .ok (.keyrd 1) := by decide
/-- OP 0x08, V16m. -/
theorem test_decode_srd : decode 0b00001000_10000000_00000000_00000000 = .ok (.srd 0x80) := by decide
theorem test_decode_clrerr : decode 0b00001001_00000000_00000000_00000000 = .ok .clrerr := by decide

/-- V16: a, b, g, h, i, l, n, o, and V1f. -/
theorem test_decode_illegal :
    ([0x00000000, 0x04000001, 0x01000200, 0x01010003, 0x05FF0000, 0x07000001, 0x0A000000, 0xFFFFFFFF,
      0x02050100] : List Word).all (fun w => (decode w).toOption.isNone) = true := by decide

/-- The lanes of a word of the table are read back in order (20_memory.md R53). -/
theorem test_decodeTableWord_keywr : decodeTableWord 32 0x02020059 = some (.keywr 2 0x59) := by decide

/-! ### Small states -/

/-- The key "KEY" = 4B 45 59 (95_test_vectors.md V4). -/
def keyTable : Table :=
  writeEntry (writeEntry (writeEntry (Vector.replicate 256 0) 0 0x4B) 1 0x45) 2 0x59

/-- A KEYED engine with the key "KEY" and a given permutation and cursors. -/
def keyedEngine (S : Table) (I J : Byte) : Engine :=
  { Engine.afterPor S keyTable with I := I, J := J, KL := 3, MODE := .keyed }

/-- A machine with the window at 0x4000 and two hosts. -/
def machine (e : Engine) (port : List Event) : State :=
  { State.reset with engine := e, params := { base := 0x4000, nHosts := 2, tKsa := 1, tStep := 1 }, port := port }

/-- The entries of "KEY"'s table that its first step touches: S[1] = 0xAA, S[0xAA] = 0x51, S[0xFB] = 0x95 (V5). -/
def firstStepTable : Table := writeEntry (writeEntry (writeEntry identityTable 1 0xAA) 0xAA 0x51) 0xFB 0x95

/-- A value of the engine in the next state, none on a stop. -/
def after {α : Type} (f : Engine → α) : Host.Outcome State Fault Refusal → Option α
  | .next t => some (f t.engine)
  | .fault _ | .refused _ => none

def keyed : State := machine (keyedEngine firstStepTable 0 0) []
def unkeyed : State := machine State.reset.engine []

/-! ### One step of each command -/

/-- V1b and V1c: 256 is stored, 257 raises KeyTooLong. -/
theorem test_setlen_256 : after (fun e => (e.KBL, e.ERR)) (exec (.setlen 256) unkeyed) = some (256, 0) := by decide
theorem test_setlen_257 : after (fun e => (e.KBL, e.ERR)) (exec (.setlen 257) unkeyed) = some (0, 4) := by decide

/-- V1e; V1g: the committed key keeps its code. -/
theorem test_keywr_stages :
    after (fun e => (readEntry e.KB 5, readEntry e.KB 4, e.ERR)) (exec (.keywr 5 0xFF) unkeyed) =
      some (0xFF, 0, 0) := by decide
theorem test_keywr_keeps_committed :
    after (fun e => (readEntry e.KB 0, readEntry e.K 0)) (exec (.keywr 0 0x11) keyed) = some (0x11, 0x4B) := by decide

/-- V14a: INIT with staging length 0. -/
theorem test_init_empty_key : after (fun e => (e.MODE, e.ERR)) (exec .init unkeyed) = some (.uninit, 1) := by decide
/-- V14c: INIT commits and rewinds. -/
theorem test_init_commits :
    after (fun e => (e.MODE, e.KL, e.KBL, e.I, e.J, readEntry e.K 2))
      (exec .init (machine { Engine.afterPor identityTable identityTable with KB := keyTable, KBL := 3, J := 9 } [])) =
      some (.keyed, 3, 3, 0, 0, 0x59) := by decide

/-- V4: the accumulator after the first four iterations for "KEY". -/
theorem test_schedule_key :
    (List.range 4).map (fun n => (scheduleRun (extendedKey keyTable 3) (n + 1)).2) = [0x4B, 0x91, 0xEC, 0x3A] := by
  decide
/-- V6: key 00 exchanges nothing at i = 0 and i = 1. -/
theorem test_schedule_self_swap :
    (List.range 4).map (fun n => (scheduleRun (extendedKey (Vector.replicate 256 0) 1) (n + 1)).2) = [0, 1, 3, 5] := by
  decide

/-- V5: I = 1, J = 0xAA, the exchange, ks = 0x95. -/
theorem test_next_first_step :
    after (fun e => (e.I, e.J, readEntry e.S 1, readEntry e.S 0xAA, e.RESULT)) (exec .next keyed) =
      some (1, 0xAA, 0x51, 0xAA, 0x0095) := by decide
/-- V9: I = J = 15, the exchange changes nothing, ks = S[0x40] = 0xD3. -/
theorem test_next_self_swap :
    after (fun e => (e.I, e.J, readEntry e.S 15, e.RESULT))
      (exec .next (machine (keyedEngine (writeEntry (writeEntry identityTable 15 0x20) 0x40 0xD3) 14 239) [])) =
      some (15, 15, 0x20, 0x00D3) := by decide

/-- V12: 0x0041 and 0x263A. -/
theorem test_proc_byte : after (fun e => e.RESULT) (exec (.proc 0x0041) keyed) = some 0x00D4 := by decide
theorem test_proc_wide : after (fun e => e.RESULT) (exec (.proc 0x263A) keyed) = some 0x26AF := by decide

/-- V16d, V18. -/
theorem test_reset_unkeyed : after (fun e => (e.MODE, e.ERR)) (exec .reset unkeyed) = some (.uninit, 2) := by decide
theorem test_reset_rewinds :
    after (fun e => (e.I, e.J, e.KL, e.MODE)) (exec .reset (machine (keyedEngine identityTable 2 0x96) [])) =
      some (0, 0, 3, .keyed) := by decide

/-- V15a, V15b. -/
theorem test_keyrd_inside : after (fun e => e.RESULT) (exec (.keyrd 1) keyed) = some 0x0045 := by decide
theorem test_keyrd_beyond : after (fun e => e.RESULT) (exec (.keyrd 3) keyed) = some 0 := by decide

/-- V5's table; V15e. -/
theorem test_srd_entry : after (fun e => (e.RESULT, e.I)) (exec (.srd 1) keyed) = some (0x00AA, 0) := by decide
theorem test_srd_unkeyed : after (fun e => (e.RESULT, e.ERR)) (exec (.srd 0) unkeyed) = some (0, 2) := by decide

/-- V15f, V15h. -/
theorem test_clrerr : after (fun e => e.ERR) (exec .clrerr (unkeyed.recording 3)) = some 0 := by decide
theorem test_malformed_clrerr : after (fun e => e.ERR) (executeWord 0x09000001 (unkeyed.recording 2)) = some 2 := by
  decide

/-- V16b: decode comes before the mode check. -/
theorem test_illegal_before_mode : after (fun e => e.ERR) (executeWord 0x04000001 unkeyed) = some 3 := by decide

/-! ### One step of the bus (95_test_vectors.md 3.6) -/

/-- The answers in the next state. -/
def answers : Host.Outcome State Fault Refusal → List Response
  | .next t => t.responses
  | .fault _ | .refused _ => []

/-- V17b: KEYLEN. -/
theorem test_read_keylen :
    answers (step (machine { keyedEngine identityTable 0 0 with KBL := 3 } [.access 1 (.read 0x400C 4)])) =
      [⟨1, .data 0x00030003⟩] := by decide
/-- V17c: CURSOR. -/
theorem test_read_cursor :
    answers (step (machine (keyedEngine identityTable 1 0xAA) [.access 0 (.read 0x4010 4)])) =
      [⟨0, .data 0x0000AA01⟩] := by decide
/-- V14b: STATUS with InvalidKey while KEYED. -/
theorem test_read_status :
    answers (step (machine { keyedEngine identityTable 0 0 with ERR := 1 } [.access 0 (.read 0x4004 4)])) =
      [⟨0, .data 0x00000011⟩] := by decide
/-- V17d: a misaligned read. -/
theorem test_misaligned_read :
    answers (step (machine (keyedEngine identityTable 0 0) [.access 0 (.read 0x4002 4)])) = [⟨0, .busError⟩] := by decide
/-- V17e: a byte write to CMD runs no command. -/
theorem test_byte_write :
    after (fun e => e.I) (step (machine (keyedEngine identityTable 7 0) [.access 0 (.write 0x4000 [0x04])])) = some 7 := by
  decide
/-- 40_initialize.md R100's example, lanes little-endian: 0x01000003. -/
theorem test_cmd_write :
    after (fun e => e.KBL) (step (machine State.reset.engine [.access 1 (.write 0x4000 [0x03, 0x00, 0x00, 0x01])])) =
      some 3 := by decide
/-- P1's first line, loaded by the model's own placing of a command. -/
theorem test_withFetchWord : after (fun e => e.KBL) (step (State.reset.withFetchWord 32 0x01000003)) = some 3 := by decide

/-- P1's key loading, "KEY" for a window at 0x4000: the words of the program. -/
theorem test_newkey_words :
    pseudoEvents 0 0x4000 (.newkey (textCodes "KEY")) =
      some (([0x01000003, 0x0200004B, 0x02010045, 0x02020059, 0x03000000] : List Word).map fun w =>
        .access 0 (.write 0x4000 (lanesOfWord w))) := by decide

/-! ### Witnesses: states and operands that meet the hypotheses of each obligation -/

theorem witness_EncodeOfDecodeIsTheWord : decode 0x02020059 = .ok (.keywr 2 0x59) := by decide

theorem witness_MatchAndMaskSelectTheDecodedRow :
    Instr.row (.proc 0) ∈ opcodeRows ∧ (Instr.row (.proc 0)).selects 0x0500FFFF = true := by decide

theorem witness_IllegalWordsAreRefusedWithIllegalCommand :
    decode 0x00000000 = .error (.reservedOp 0) ∧ decode 0x0A000000 = .error (.reservedOp 0x0A) ∧
    decode 0x01000200 = .error (.strayBits 1) ∧ decode 0x0200FF00 = .error (.strayBits 2) ∧
    decode 0x03000001 = .error (.strayBits 3) ∧ decode 0x05FF0000 = .error (.strayBits 5) ∧
    decode 0x07000001 = .error (.strayBits 7) := by decide

theorem witness_SetlenStoresTheStagingLength :
    (256 : U9).toNat ≤ 256 ∧ 256 < (257 : U9).toNat ∧
    (0x01000200 : Word).extractLsb' 24 8 = 0x01 ∧ (0x01000200 : Word).extractLsb' 9 15 ≠ 0 := by decide

theorem witness_KeywrWritesOneStagingCode :
    (0x02000100 : Word).extractLsb' 24 8 = 0x02 ∧ (0x02000100 : Word).extractLsb' 8 8 ≠ 0 := by decide

theorem witness_InitConstructsTheEngine :
    unkeyed.engine.KBL = 0 ∧ (machine { keyedEngine identityTable 0 0 with KBL := 256 } []).engine.KBL ≠ 0 ∧
    (0x03000001 : Word).extractLsb' 24 8 = 0x03 ∧ (0x03000001 : Word) ≠ 0x03000000 := by decide

theorem witness_NextTakesOneKeystreamStep :
    keyed.engine.MODE = .keyed ∧ unkeyed.engine.MODE = .uninit ∧
    (0x04000001 : Word).extractLsb' 24 8 = 0x04 ∧ (0x04000001 : Word) ≠ 0x04000000 := by decide

theorem witness_ProcXorsTheUnitWithOneKeystreamByte :
    keyed.engine.MODE = .keyed ∧ unkeyed.engine.MODE = .uninit ∧
    (0x05FF0000 : Word).extractLsb' 24 8 = 0x05 ∧ (0x05FF0000 : Word).extractLsb' 16 8 ≠ 0 := by decide

theorem witness_ProcPassesTheHighByteAndMatchesNext : keyed.engine.MODE = .keyed := by decide

theorem witness_ResetRekeysFromTheCommittedKey :
    keyed.engine.MODE = .keyed ∧ unkeyed.engine.MODE = .uninit ∧
    (0x06000001 : Word).extractLsb' 24 8 = 0x06 ∧ (0x06000001 : Word) ≠ 0x06000000 := by decide

theorem witness_KeyrdReadsTheCommittedKey :
    keyed.engine.MODE = .keyed ∧ (2 : Byte).toNat < keyed.engine.KL.toNat ∧
    keyed.engine.KL.toNat ≤ (3 : Byte).toNat ∧ unkeyed.engine.MODE = .uninit ∧
    (0x07000001 : Word).extractLsb' 24 8 = 0x07 ∧ (0x07000001 : Word).extractLsb' 0 16 ≠ 0 := by decide

theorem witness_SrdReadsOnePermutationEntry :
    keyed.engine.MODE = .keyed ∧ unkeyed.engine.MODE = .uninit ∧
    (0x08008000 : Word).extractLsb' 24 8 = 0x08 ∧ (0x08008000 : Word).extractLsb' 0 16 ≠ 0 ∧
    (machine (keyedEngine identityTable 0 0) []).engine.MODE = .keyed ∧ IsPermutation identityTable :=
  ⟨by decide, by decide, by decide, by decide, rfl, identityTable_isPermutation⟩

theorem witness_ClrerrClearsTheErrorStatus :
    (0x09000001 : Word).extractLsb' 24 8 = 0x09 ∧ (0x09000001 : Word) ≠ 0x09000000 := by decide

theorem witness_ErrorPriorityIsDecodeModeOperand :
    (decode 0x04000001 = .error (.strayBits 4)) ∧
    (decode 0x04000000 = .ok .next ∧ needsKeyed .next = true ∧ unkeyed.engine.MODE = .uninit) ∧
    (decode 0x01000101 = .ok (.setlen 257) ∧ 256 < (257 : U9).toNat) ∧
    (decode 0x03000000 = .ok .init ∧ unkeyed.engine.KBL = 0) ∧
    (decode 0x01000100 = .ok (.setlen 256) ∧ (256 : U9).toNat ≤ 256 ∧ needsKeyed (.setlen 256) = false) := by decide

theorem witness_FirstErrorIsSticky :
    ∃ t, step (machine { keyedEngine identityTable 0 0 with ERR := 2 } [.timedOutCommand 1 0x03000000]) = .next t ∧
      ({ keyedEngine identityTable 0 0 with ERR := 2 } : Engine).ERR ≠ 0 ∧
      (Event.timedOutCommand 1 0x03000000).commandWord 0x4000 ≠ some 0x09000000 := ⟨_, rfl, by decide, by decide⟩

theorem witness_FirstErrorIsSticky_cleared :
    (∃ t, step (machine { keyedEngine identityTable 0 0 with ERR := 2 } [.access 1 (.write 0x4000 [0, 0, 0, 9])]) =
      .next t) ∧
    (Event.access 1 (.write 0x4000 [0, 0, 0, 9])).commandWord 0x4000 = some 0x09000000 := ⟨⟨_, rfl⟩, by decide⟩

theorem witness_RaiseRecordsTheFirstErrorCode :
    unkeyed.engine.ERR = 0 ∧ (unkeyed.recording 3).engine.ERR ≠ 0 := by decide

theorem witness_ErrorsDoNotBlockCommands : ∃ t, exec (.keyrd 1) keyed = .next t := ⟨_, rfl⟩

theorem witness_OnlyTheNamedCommandsWriteEachItem : ∃ t, exec (.setlen 256) keyed = .next t := ⟨_, rfl⟩

/-- A failing command of each kind of R206, and a boundary case that fails no check. -/
theorem witness_OnlyTheNamedCommandsWriteEachItem_error :
    (∃ t, exec .next unkeyed = .next t ∧ needsKeyed .next = true ∧ unkeyed.engine.MODE = .uninit) ∧
    (∃ t, exec (.setlen 257) keyed = .next t ∧ 256 < (257 : U9).toNat) ∧
    (∃ t, exec .init unkeyed = .next t ∧ unkeyed.engine.KBL = 0) ∧
    (256 : U9).toNat ≤ 256 ∧ needsKeyed (.setlen 256) = false :=
  ⟨⟨_, rfl, rfl, rfl⟩, ⟨_, rfl, by decide⟩, ⟨_, rfl, rfl⟩, by decide, rfl⟩

theorem witness_BeforeTheFirstKeyOnlyFourCommandsAct :
    unkeyed.engine.MODE = .uninit ∧ (∀ len, Instr.next ≠ .setlen len) ∧ (∀ a b, Instr.next ≠ .keywr a b) ∧
    Instr.next ≠ .init ∧ Instr.next ≠ .clrerr := ⟨rfl, nofun, nofun, nofun, nofun⟩

theorem witness_KeyScheduleFollowsItsRecurrence :
    (1 ≤ (1 : U9).toNat ∧ (1 : U9).toNat ≤ 256) ∧ 1 ≤ (256 : U9).toNat ∧ (256 : U9).toNat ≤ 256 := by decide

theorem witness_PermutationIsMadeAndKept : IsPermutation (Generator.mk identityTable 0 0).S :=
  identityTable_isPermutation

/-- "AB" and "ABAB" (V13), here with both codes equal: lengths 1 and 2 of a constant key. -/
theorem witness_EqualExtensionsGiveTheSameSchedule :
    ∀ i < 256, readEntry (Vector.replicate 256 7) (BitVec.ofNat 8 (i % (1 : U9).toNat)) =
      readEntry (Vector.replicate 256 7) (BitVec.ofNat 8 (i % (2 : U9).toNat)) := by simp

theorem witness_InitDependsOnlyOnTheStagedCodes :
    ∃ t t', exec .init (machine { keyedEngine identityTable 0 0 with KBL := 1 } []) = .next t ∧
      exec .init (machine { keyedEngine identityTable 0 0 with
        KBL := 1, KB := writeEntry (Vector.replicate 256 0) 1 9 } []) = .next t' ∧
      ∀ n : Byte, n.toNat < (1 : U9).toNat →
        readEntry (writeEntry (Vector.replicate 256 0) 1 9) n = readEntry (Vector.replicate 256 0) n := by
  refine ⟨_, _, rfl, rfl, fun n hn => readEntry_writeEntry_other _ _ ?_⟩
  rintro rfl
  simp at hn

theorem witness_AdmittedReadsAnswerTheRegister :
    (machine keyed.engine [.access 1 (.read (0x4000 + 0x1C) 4)]).port =
      .access 1 (.read (keyed.params.base + 0x1C) 4) :: [] ∧ 1 < keyed.params.nHosts ∧ 0x1C % 4 = 0 := by decide

theorem witness_OtherAccessesInTheWindowGetBusErrors :
    1 < keyed.params.nHosts ∧ 0x1F ≤ 0x1F ∧
    (machine keyed.engine [.access 1 (.read (0x4000 + 0x1F) 4)]).port =
      .access 1 (.read (keyed.params.base + 0x1F) 4) :: [] ∧ ¬(4 = 4 ∧ 0x1F % 4 = 0) ∧
    (machine keyed.engine [.access 1 (.write 0x4000 [0x04])]).port =
      .access 1 (.write (keyed.params.base + 0) [0x04]) :: [] ∧
    ¬(([0x04] : List Byte).length = 4 ∧ 0 % 4 = 0) := by decide

theorem witness_AddressesOutsideTheWindowAreNotDecoded :
    (0x3FFF < keyed.params.base ∧ keyed.params.base + 0x1F < 0x4020) ∧ 1 < keyed.params.nHosts ∧
    (machine keyed.engine [.access 1 (.read 0x4020 4)]).port = .access 1 (.read 0x4020 4) :: [] ∧
    (machine keyed.engine [.access 1 (.write 0x3FFF [1, 2, 3, 4])]).port =
      .access 1 (.write 0x3FFF [1, 2, 3, 4]) :: [] := by decide

theorem witness_WritesOutsideCmdAreIgnored :
    (machine keyed.engine [.access 0 (.write (0x4000 + 0x1C) [0xFF, 0xFF, 0xFF, 0xFF])]).port =
      .access 0 (.write (keyed.params.base + 0x1C) [0xFF, 0xFF, 0xFF, 0xFF]) :: [] ∧ 0 < keyed.params.nHosts ∧
    0x1C ∈ [0x04, 0x08, 0x0C, 0x10, 0x14, 0x18, 0x1C] := by decide

theorem witness_StepRunsTheDecodedCommand :
    (machine keyed.engine [.access 1 (.write 0x4000 [0, 0, 0, 0x04])]).port =
      .access 1 (.write keyed.params.base [0, 0, 0, 0x04]) :: [] ∧ 1 < keyed.params.nHosts ∧
    decode (wordOfLanes [0, 0, 0, 0x04]) = .ok .next ∧
    decode (wordOfLanes [1, 0, 0, 0x04]) = .error (.strayBits 4) := by decide

theorem witness_EventsAreServedInArrivalOrder :
    ∃ t, step (machine keyed.engine [.access 1 (.read 0x4004 4), .powerOnReset]) = .next t := ⟨_, rfl⟩

theorem witness_EachHostKeepsItsProgramOrder :
    (∃ t, step (machine keyed.engine [.access 1 (.read 0x4004 4), .access 0 (.read 0x4008 4)]) = .next t) ∧
    Interleaves [[.access 0 (.read 0x4008 4)], [.access 1 (.read 0x4004 4)]]
      [.access 1 (.read 0x4004 4), .access 0 (.read 0x4008 4)] := by
  refine ⟨⟨_, rfl⟩, ?_, ?_⟩
  · simp [Event.host]
  · intro h hh
    simp only [List.length_cons, List.length_nil] at hh
    interval_cases h <;> decide

theorem witness_EveryHostHasTheSameEffect :
    1 < keyed.params.nHosts ∧ ∃ t, step { keyed with port := [.access 0 (.write 0x4000 [0, 0, 0, 0x04])] } = .next t :=
  ⟨by decide, _, rfl⟩

theorem witness_TimedOutCommandsStillExecute :
    (machine keyed.engine [.timedOutCommand 1 0x06000000]).port = .timedOutCommand 1 0x06000000 :: [] ∧
    1 < keyed.params.nHosts := by decide

theorem witness_PowerOnResetGivesTheResetValues :
    (machine keyed.engine [.powerOnReset]).port = .powerOnReset :: [] := by decide

theorem witness_PowerOnResetAbandonsTheCommand :
    (machine keyed.engine [.resetDuringCommand 0 0x03000000]).port = .resetDuringCommand 0 0x03000000 :: [] ∧
    0 < keyed.params.nHosts := by decide

theorem witness_PowerOnStatesSatisfyTheInvariant : (Engine.afterPor identityTable keyTable).IsPorState :=
  ⟨_, _, rfl⟩

/-- The invariant holds of a KEYED engine and of an UNINIT one. -/
theorem witness_StepKeepsTheEngineInvariant :
    (keyedEngine identityTable 0 0).Inv ∧ State.reset.engine.Inv ∧
    ∃ t, step (machine (keyedEngine identityTable 0 0) [.powerOnReset]) = .next t := by
  refine ⟨⟨by decide, by decide, fun _ => by decide, fun _ => identityTable_isPermutation, by decide⟩, ?_, _, rfl⟩
  exact ⟨by decide, by decide, nofun, nofun, by decide⟩

theorem witness_StepKeepsTheKeystreamTrajectory :
    ({ keyedEngine identityTable 0 0 with toGenerator := keySchedule keyTable 3 } : Engine).OnTrajectory ∧
    ∃ t, step (machine { keyedEngine identityTable 0 0 with toGenerator := keySchedule keyTable 3 }
      [.timedOutCommand 0 0x04000000]) = .next t :=
  ⟨fun _ => ⟨0, rfl⟩, _, rfl⟩

theorem witness_ServedRunsNeverStop :
    (machine keyed.engine [.access 1 (.read 0x4002 1), .powerOnReset]).Served := by
  constructor
  · decide
  · simp [machine, Event.ofBlock]

/-- Power-on states that differ in `S` and `K`, with the same events waiting. -/
theorem witness_PowerOnContentsAreUnobservable :
    (machine (Engine.afterPor identityTable keyTable) [.timedOutCommand 0 0x08000000]).Indistinguishable
      (machine State.reset.engine [.timedOutCommand 0 0x08000000]) ∧
    ∃ t, step (machine (Engine.afterPor identityTable keyTable) [.timedOutCommand 0 0x08000000]) = .next t :=
  ⟨⟨⟨⟨rfl, rfl⟩, ⟨rfl, rfl⟩, rfl, ⟨rfl, rfl⟩, rfl, nofun, nofun⟩, rfl, rfl, rfl⟩, _, rfl⟩

/-- P4's failed re-key: SETLEN 0, an INIT that fails, and a NEXT. -/
def keyKeepingEvents : List Event :=
  [.access 0 (.write 0x4000 [0, 0, 0, 0x01]), .access 1 (.write 0x4000 [0, 0, 0, 0x03]),
    .timedOutCommand 1 0x04000000]

/-- A KEYED machine with that re-key waiting. -/
def rekeying : State := machine { keyedEngine identityTable 0 0 with KBL := 1 } keyKeepingEvents

theorem witness_StepKeepsTheCommittedKey : rekeying.NextKeepsKey ∧ ∃ t, step rekeying = .next t :=
  ⟨(nextKeepsKey_cons rfl).mpr ⟨trivial, nofun⟩, _, rfl⟩

theorem keyKeepingEvents_keep_the_key (e : Engine) :
    (∀ (j : Nat) (u : State), j < 3 → Host.Core.run core j (machine e keyKeepingEvents) = .next u → u.NextKeepsKey) ∧
      ∃ t : State, Host.Core.run core 3 (machine e keyKeepingEvents) = .next t := by
  obtain ⟨g, K, KL, KB, KBL, MODE, ERR, RESULT⟩ := e
  constructor
  · intro j u hj hu
    interval_cases j <;> cases hu
    · exact (nextKeepsKey_cons rfl).mpr ⟨trivial, fun h => absurd h
        (by decide : (Event.access 0 (.write 0x4000 [0, 0, 0, 0x01])).commandWord 0x4000 ≠ some (encode .init))⟩
    · exact (nextKeepsKey_cons rfl).mpr ⟨trivial, fun _ => rfl⟩
    · exact (nextKeepsKey_cons rfl).mpr ⟨trivial, fun h => absurd h
        (by decide : (Event.timedOutCommand 1 0x04000000).commandWord 0x4000 ≠ some (encode .init))⟩
  · cases MODE <;> exact ⟨_, rfl⟩

theorem witness_ResetRestoresTheStateAfterInit :
    ∃ t₀ t : State, rekeying.engine.KBL ≠ 0 ∧ exec .init rekeying = .next t₀ ∧
      (∀ (j : Nat) (u : State), j < 3 → Host.Core.run core j t₀ = .next u → u.NextKeepsKey) ∧
      Host.Core.run core 3 t₀ = .next t := by
  obtain ⟨hkeep, t, ht⟩ := keyKeepingEvents_keep_the_key rekeying.engine.construct
  exact ⟨_, t, by decide, rfl, hkeep, ht⟩

theorem witness_NewkeyKeysTheEngine :
    0 < unkeyed.params.nHosts ∧ ∃ evs, pseudoEvents 0 unkeyed.params.base (.newkey [0xFF]) = some evs ∧
      (machine State.reset.engine (evs ++ [])).port = evs ++ [] := ⟨by decide, _, rfl, rfl⟩

theorem witness_ProcessAnswersOneOutputPerUnit :
    keyed.engine.MODE = .keyed ∧ 1 < keyed.params.nHosts ∧
    ∃ evs, pseudoEvents 1 keyed.params.base (.process (([0xFFFF] : List U16).map BitVec.toNat)) = some evs ∧
      (machine keyed.engine (evs ++ [.powerOnReset])).port = evs ++ [.powerOnReset] :=
  ⟨by decide, by decide, _, rfl, rfl⟩

theorem witness_ProcessRoundTrip :
    keyed.engine.MODE = .keyed ∧ (machine { keyed.engine with RESULT := 7 } []).engine.MODE = .keyed ∧
    keyed.engine.toGenerator = (machine { keyed.engine with RESULT := 7 } []).engine.toGenerator ∧
    1 < keyed.params.nHosts := ⟨rfl, rfl, rfl, by decide⟩

theorem witness_CommandStatementsEmitTheirWord :
    stmtAccess 0x4000 (.setlen 511) = some (.write 0x4000 [0xFF, 0x01, 0, 0x01]) ∧
    stmtAccess 0x4000 (.keywr 255 255) = some (.write 0x4000 [0xFF, 0, 0xFF, 0x02]) ∧
    stmtAccess 0x4000 (.proc 65535) = some (.write 0x4000 [0xFF, 0xFF, 0, 0x05]) ∧
    stmtAccess 0x4000 (.srd 255) = some (.write 0x4000 [0, 0, 0xFF, 0x08]) ∧
    stmtAccess 0x4000 (.wr .cursor (2 ^ 32 - 1)) = some (.write 0x4010 [0xFF, 0xFF, 0xFF, 0xFF]) ∧
    511 < 512 ∧ (255 < 255 ∨ 255 < 256) ∧ 65535 < 65536 ∧ 2 ^ 32 ≤ 2 ^ 32 := by decide

end Sys2Proof.Tests
end

namespace Sys2Proof.Machine

/-! ### What a command can do to the machine: it goes on, and the outside world stays (60_exceptions.md R200) -/

/-- A command that needs a key goes on and writes at most the engine, in both modes (60_exceptions.md R203). -/
theorem whenKeyed_writes_only_engine (f : Engine → Engine) (s : State) :
    ∃ e : Engine, whenKeyed f s = .next (s.setEngine e) := by
  cases h : s.engine.MODE with
  | uninit => exact ⟨_, whenKeyed_uninit h f⟩
  | keyed => exact ⟨_, whenKeyed_keyed h f⟩

/-- Every command goes on and writes at most the engine (60_exceptions.md R200, R210). -/
theorem exec_writes_only_engine (i : Instr) (s : State) : ∃ e : Engine, exec i s = .next (s.setEngine e) := by
  cases i with
  | setlen len =>
    by_cases h : lengthTooLong len = true
    · exact ⟨_, if_pos h⟩
    · exact ⟨_, if_neg h⟩
  | keywr idx byte => exact ⟨_, rfl⟩
  | init =>
    by_cases h : s.engine.KBL = 0
    · exact ⟨_, if_pos h⟩
    · exact ⟨_, if_neg h⟩
  | next => exact whenKeyed_writes_only_engine _ s
  | proc unit => exact whenKeyed_writes_only_engine _ s
  | reset => exact whenKeyed_writes_only_engine _ s
  | keyrd idx =>
    rw [exec, execKeyrd]
    exact whenKeyed_writes_only_engine _ s
  | srd idx =>
    rw [exec, execSrd]
    exact whenKeyed_writes_only_engine _ s
  | clrerr => exact ⟨_, rfl⟩

/-- Every word, legal or not, goes on and writes at most the engine (30_encoding.md R84; 60_exceptions.md R200). -/
theorem executeWord_writes_only_engine (w : Word) (s : State) :
    ∃ e : Engine, executeWord w s = .next (s.setEngine e) := by
  obtain ⟨i, -, hi⟩ | ⟨r, -, hr⟩ := executeWord_cases w s
  · rw [hi]
    exact exec_writes_only_engine i s
  · exact ⟨_, hr⟩

/-- A register write goes on and writes at most the engine (20_memory.md R66). -/
theorem writeReg_writes_only_engine (off : Nat) (w : Word) (s : State) :
    ∃ e : Engine, writeReg off w s = .next (s.setEngine e) := by
  by_cases h : off = 0
  · rw [writeReg, if_pos h]
    exact executeWord_writes_only_engine w s
  · exact ⟨s.engine, if_neg h⟩

/-! ### What serving an event can do: it goes on, for an event of a host of the block (00_scope.md R12) -/

/-- The outcome is a next state with the parameters and the waiting events of `s`. -/
def GoesOnFrom (s : State) (o : Host.Outcome State Fault Refusal) : Prop :=
  ∃ t : State, o = .next t ∧ t.params = s.params ∧ t.port = s.port

/-- What writes at most the engine goes on, and still does once its host is answered. -/
theorem goesOnFrom_answered {s : State} {o : Host.Outcome State Fault Refusal}
    (h : ∃ e : Engine, o = .next (s.setEngine e)) (host : Nat) (a : Answer) : GoesOnFrom s (answered host a o) := by
  obtain ⟨e, rfl⟩ := h
  exact ⟨_, rfl, rfl, rfl⟩

/-- A write goes on, outside the window, refused and admitted alike (20_memory.md R51, R52, R66; log entries 5 and 6). -/
theorem serveWrite_goesOnFrom (host addr : Nat) (lanes : List Byte) (s : State) :
    GoesOnFrom s (serveWrite host addr lanes s) := by
  obtain ⟨-, h⟩ | ⟨off, -, ⟨-, h⟩ | ⟨-, h⟩⟩ := serveWrite_cases host addr lanes s
  · exact ⟨_, h, rfl, rfl⟩
  · exact ⟨_, h, rfl, rfl⟩
  · rw [h]
    exact goesOnFrom_answered (writeReg_writes_only_engine off (wordOfLanes lanes) s) host .written

/-- An access goes on; a read answers in every case (20_memory.md R52, R55). -/
theorem serveAccess_goesOnFrom (host : Nat) (a : Access) (s : State) : GoesOnFrom s (serveAccess host a s) := by
  cases a with
  | read addr n => exact ⟨_, rfl, rfl, rfl⟩
  | write addr lanes => exact serveWrite_goesOnFrom host addr lanes s

/-- An event of a host of the block is served, and the events that wait behind it go on waiting. -/
theorem serve_goesOnFrom {ev : Event} {s : State} (h : ev.ofBlock s.params) : GoesOnFrom s (serve ev s) := by
  cases ev with
  | access host a =>
    rw [serve, fromHost_of_lt h]
    exact serveAccess_goesOnFrom host a s
  | timedOutCommand host w =>
    rw [serve, fromHost_of_lt h]
    exact goesOnFrom_answered (executeWord_writes_only_engine w s) host .timedOut
  | resetDuringCommand host w => exact ⟨_, fromHost_of_lt h _, rfl, rfl⟩
  | powerOnReset => exact ⟨_, rfl, rfl, rfl⟩

/-! ### Served runs -/

/-- Fewer waiting events, with the same parameters, can still be served. -/
theorem State.Served.of_port_subset {s t : State} (h : s.Served) (hparams : t.params = s.params)
    (hport : t.port ⊆ s.port) : t.Served := by
  obtain ⟨hwf, hev⟩ := h
  unfold State.Served
  rw [hparams]
  exact ⟨hwf, fun ev hmem => hev ev (hport hmem)⟩

/-- A served state steps to a served state (00_scope.md R12; log entry 4 for the empty port). -/
theorem State.Served.step_eq_next {s : State} (h : s.Served) : ∃ t : State, step s = .next t ∧ t.Served := by
  cases hp : s.port with
  | nil => exact ⟨s, step_nil hp, h⟩
  | cons ev rest =>
    have hev : ev.ofBlock s.params := h.2 ev (by simp [hp])
    obtain ⟨t, ht, hparams, hport⟩ := serve_goesOnFrom (s := s.setPort rest) hev
    refine ⟨t, (step_cons hp).trans ht, h.of_port_subset hparams ?_⟩
    rw [hport, hp]
    exact List.subset_cons_self ev rest

/-- Settles O47, by induction on the number of steps. -/
theorem servedRunsNeverStop : Obligations.ServedRunsNeverStop := by
  intro s k
  induction k generalizing s with
  | zero => exact fun h => ⟨s, run_zero s, h⟩
  | succ k ih =>
    intro h
    obtain ⟨u, hu, hserved⟩ := h.step_eq_next
    rw [run_succ_of_step hu]
    exact ih u hserved

end Sys2Proof.Machine

namespace Sys2Proof

/-! ### The decoder and the encoder agree (30_encoding.md R81, R84) -/

@[simp] theorem extractLsb'_setWidth_len (len : U9) : (len.setWidth 16).extractLsb' 9 7 = 0 := by
  ext i hi
  simp [BitVec.getLsbD_setWidth]

@[simp] theorem extractLsb'_setWidth_byte (b : Byte) : (b.setWidth 16).extractLsb' 8 8 = 0 := by
  ext i hi
  simp [BitVec.getLsbD_setWidth]

/-- Every command's word decodes to it: its fields are the ones packed, and its must-be-zero bits are zero. -/
theorem decode_encode (i : Instr) : decode (encode i) = .ok i := by
  cases i <;> simp [encode, decode, acceptIf_eq_ok_iff]

/-- A legal word is the word of the command it decodes to: its opcode picks the command, and the must-be-zero bits
leave it no other fields. -/
theorem encode_of_decode {w : Word} {i : Instr} (h : decode w = .ok i) : encode i = w := by
  have hop (op : Byte) (hn : (opField w).toNat = op.toNat) : opField w = op := BitVec.eq_of_toNat_eq hn
  rw [← packWord_fields w]
  simp only [decode] at h
  split at h <;> simp only [acceptIf_eq_ok_iff, Bool.and_eq_true, beq_iff_eq, reduceCtorEq] at h <;>
    obtain ⟨hzero, rfl⟩ := h
  case h_1 hn => rw [encode, setWidth_lenOperand hzero.2, hzero.1, hop 1 hn]
  case h_2 hn => rw [encode, setWidth_byteOperand hzero, hop 2 hn]
  case h_3 hn => rw [encode, hzero.1, hzero.2, hop 3 hn]
  case h_4 hn => rw [encode, hzero.1, hzero.2, hop 4 hn]
  case h_5 hn => rw [encode, hzero, hop 5 hn]
  case h_6 hn => rw [encode, hzero.1, hzero.2, hop 6 hn]
  case h_7 hn => rw [encode, hzero, hop 7 hn]
  case h_8 hn => rw [encode, hzero, hop 8 hn]
  case h_9 hn => rw [encode, hzero.1, hzero.2, hop 9 hn]

end Sys2Proof

namespace Sys2Proof.Machine

/-! ### What a command does to the engine: the check it fails, or its effect (60_exceptions.md R206) -/

/-- The check a legal command fails (60_exceptions.md R202, R203, R205), if any. -/
def failedCheck (i : Instr) (e : Engine) : Option CommandError :=
  match i with
  | .setlen len => if lengthTooLong len then some .keyTooLong else none
  | .init => if e.KBL = 0 then some .invalidKey else none
  | .next | .proc _ | .reset | .keyrd _ | .srd _ => if e.MODE = .uninit then some .notKeyed else none
  | .keywr _ _ | .clrerr => none

/-- The effect of a command that passes its checks. -/
def Engine.act (e : Engine) (i : Instr) : Engine :=
  match i with
  | .setlen len => e.setKBL len
  | .keywr idx byte => e.setKB (writeEntry e.KB idx byte)
  | .init => e.construct
  | .next => e.keystream fun ks => ks
  | .proc unit => e.keystream fun ks => unit ^^^ ks
  | .reset => e.rekey
  | .keyrd idx => e.setRESULT (zext16 (shownKeyCode e.K e.KL idx))
  | .srd idx => e.setRESULT (zext16 (readEntry e.S idx))
  | .clrerr => e.setERR 0

/-- The engine with an error recorded by the sticky rule (60_exceptions.md R208). -/
def Engine.record (e : Engine) (err : CommandError) : Engine := e.setERR (recordError e.ERR err.code)

/-- The engine after a command: the error of the check it fails, else its effect. -/
def Engine.execute (e : Engine) (i : Instr) : Engine := (failedCheck i e).elim (e.act i) e.record

/-- The engine after a command word, legal or not (20_memory.md R66). -/
def Engine.executeWord (e : Engine) (w : Word) : Engine :=
  match decode w with
  | .ok i => e.execute i
  | .error _ => e.record .illegalCommand

theorem raise_eq_next (err : CommandError) (s : State) : raise err s = .next (s.setEngine (s.engine.record err)) :=
  rfl

theorem setEngine_record (s : State) (err : CommandError) :
    s.setEngine (s.engine.record err) = s.recording err.code :=
  rfl

/-- A check failed, or the effect took place. -/
theorem execute_cases (e : Engine) (i : Instr) :
    (∃ err, failedCheck i e = some err ∧ e.execute i = e.record err) ∨
      (failedCheck i e = none ∧ e.execute i = e.act i) := by
  unfold Engine.execute
  cases failedCheck i e <;> simp

/-- A command that needs a key acts while KEYED and records NotKeyed while UNINIT. -/
theorem whenKeyed_eq_elim (f : Engine → Engine) (s : State) :
    whenKeyed f s = .next (s.setEngine
      ((if s.engine.MODE = .uninit then some .notKeyed else none).elim (f s.engine) s.engine.record)) := by
  cases h : s.engine.MODE with
  | uninit => exact whenKeyed_uninit h f
  | keyed => exact whenKeyed_keyed h f

/-- The model's `exec` is `Engine.execute` on the engine and nothing else. -/
theorem exec_eq_next (i : Instr) (s : State) : exec i s = .next (s.setEngine (s.engine.execute i)) := by
  cases i with
  | setlen len =>
    simp only [exec, execSetlen, Engine.execute, failedCheck]
    split <;> rfl
  | init =>
    simp only [exec, execInit, Engine.execute, failedCheck]
    split <;> rfl
  | keywr idx byte => rfl
  | clrerr => rfl
  | next => exact whenKeyed_eq_elim _ s
  | proc unit => exact whenKeyed_eq_elim _ s
  | reset => exact whenKeyed_eq_elim _ s
  | keyrd idx => exact whenKeyed_eq_elim (·.act (.keyrd idx)) s
  | srd idx => exact whenKeyed_eq_elim (·.act (.srd idx)) s

theorem executeWord_eq_next (w : Word) (s : State) :
    executeWord w s = .next (s.setEngine (s.engine.executeWord w)) := by
  unfold executeWord Engine.executeWord
  cases decode w with
  | ok i => exact exec_eq_next i s
  | error r => exact raise_eq_next .illegalCommand s

/-- A command passes its checks exactly when none of R202, R203 and R205 applies. -/
theorem failedCheck_eq_none_iff (i : Instr) (e : Engine) :
    failedCheck i e = none ↔
      ¬(needsKeyed i = true ∧ e.MODE = .uninit) ∧ (∀ len, i = .setlen len → len.toNat ≤ 256) ∧
        (i = .init → e.KBL ≠ 0) := by
  cases i <;> simp [failedCheck, needsKeyed, lengthTooLong_eq_true_iff]

theorem failedCheck_uninit {i : Instr} {e : Engine} (hi : needsKeyed i = true) (h : e.MODE = .uninit) :
    failedCheck i e = some .notKeyed := by
  cases i <;> simp_all [failedCheck, needsKeyed]

theorem failedCheck_setlen {len : U9} (h : 256 < len.toNat) (e : Engine) :
    failedCheck (.setlen len) e = some .keyTooLong :=
  if_pos ((lengthTooLong_eq_true_iff len).mpr h)

theorem failedCheck_init {e : Engine} (h : e.KBL = 0) : failedCheck .init e = some .invalidKey := if_pos h

/-! ### What each effect leaves as it was (10_state.md R20) -/

section Frame

variable {i : Instr} (e : Engine)

theorem act_toGenerator (hinit : i ≠ .init) (hreset : i ≠ .reset) (hnext : i ≠ .next) (hproc : ∀ u, i ≠ .proc u) :
    (e.act i).toGenerator = e.toGenerator := by
  cases i with
  | init => exact absurd rfl hinit
  | reset => exact absurd rfl hreset
  | next => exact absurd rfl hnext
  | proc u => exact absurd rfl (hproc u)
  | setlen | keywr | keyrd | srd | clrerr => simp [Engine.act]

theorem act_committedKey (hinit : i ≠ .init) :
    (e.act i).K = e.K ∧ (e.act i).KL = e.KL ∧ (e.act i).MODE = e.MODE := by
  cases i with
  | init => exact absurd rfl hinit
  | setlen | keywr | next | proc | reset | keyrd | srd | clrerr => simp [Engine.act]

theorem act_KB (hkeywr : ∀ idx byte, i ≠ .keywr idx byte) : (e.act i).KB = e.KB := by
  cases i with
  | keywr idx byte => exact absurd rfl (hkeywr idx byte)
  | setlen | init | next | proc | reset | keyrd | srd | clrerr => simp [Engine.act]

theorem act_KBL (hsetlen : ∀ len, i ≠ .setlen len) : (e.act i).KBL = e.KBL := by
  cases i with
  | setlen len => exact absurd rfl (hsetlen len)
  | keywr | init | next | proc | reset | keyrd | srd | clrerr => simp [Engine.act]

theorem act_RESULT (hnext : i ≠ .next) (hproc : ∀ u, i ≠ .proc u) (hkeyrd : ∀ n, i ≠ .keyrd n)
    (hsrd : ∀ n, i ≠ .srd n) : (e.act i).RESULT = e.RESULT := by
  cases i with
  | next => exact absurd rfl hnext
  | proc u => exact absurd rfl (hproc u)
  | keyrd n => exact absurd rfl (hkeyrd n)
  | srd n => exact absurd rfl (hsrd n)
  | setlen | keywr | init | reset | clrerr => simp [Engine.act]

theorem act_ERR (hclrerr : i ≠ .clrerr) : (e.act i).ERR = e.ERR := by
  cases i with
  | clrerr => exact absurd rfl hclrerr
  | setlen | keywr | init | next | proc | reset | keyrd | srd => simp [Engine.act]

end Frame

/-- Settles O22: a command that fails a check records its code alone, and one that passes has the frame of its
effect. -/
theorem onlyTheNamedCommandsWriteEachItem : Obligations.OnlyTheNamedCommandsWriteEachItem := by
  intro i s t h
  rw [exec_eq_next] at h
  cases h
  obtain ⟨err, hcheck, he⟩ | ⟨hcheck, he⟩ := execute_cases s.engine i <;> rw [he]
  · refine ⟨fun _ _ _ _ => rfl, fun _ => ⟨rfl, rfl, rfl⟩, fun _ => rfl, fun _ => rfl, fun _ _ _ _ => rfl,
      fun hi hm => ?_, fun len hi hlen => ?_, fun hi hKBL => ?_, fun _ hkeyed hlen hinit => ?_⟩
    · cases hcheck.symm.trans (failedCheck_uninit hi hm)
      exact setEngine_record s .notKeyed
    · cases hcheck.symm.trans (hi ▸ failedCheck_setlen hlen s.engine)
      exact setEngine_record s .keyTooLong
    · cases hcheck.symm.trans (hi ▸ failedCheck_init hKBL)
      exact setEngine_record s .invalidKey
    · cases hcheck.symm.trans ((failedCheck_eq_none_iff i s.engine).mpr ⟨hkeyed, hlen, hinit⟩)
  · obtain ⟨hkeyed, hlen, hinit⟩ := (failedCheck_eq_none_iff i s.engine).mp hcheck
    exact ⟨act_toGenerator _, act_committedKey _, act_KB _, act_KBL _, act_RESULT _,
      fun hi hm => absurd ⟨hi, hm⟩ hkeyed, fun len hi h => absurd (hlen len hi) (Nat.not_le.mpr h),
      fun hi h => absurd h (hinit hi), fun hi _ _ _ => act_ERR _ hi⟩

/-! ### What a step does to the engine -/

/-- Serving an event leaves the engine, or executes the event's command word on it, or is a power-on reset. -/
theorem serve_engine_cases {ev : Event} {s t : State} (h : serve ev s = .next t) :
    t.engine = s.engine ∨ (∃ w, ev.commandWord s.params.base = some w ∧ t.engine = s.engine.executeWord w) ∨
      (¬ ev.keepsKey s ∧ t.engine.IsPorState) := by
  cases ev with
  | access host a =>
    obtain ⟨-, h⟩ := (fromHost_eq_next_iff _ _ _ _).mp h
    cases a with
    | read addr n =>
      cases h
      exact .inl rfl
    | write addr lanes =>
      rw [serveAccess] at h
      obtain ⟨-, hw⟩ | ⟨off, hoff, ⟨-, hw⟩ | ⟨hadm, hw⟩⟩ := serveWrite_cases host addr lanes s <;> rw [hw] at h
      · cases h
        exact .inl rfl
      · cases h
        exact .inl rfl
      · obtain ⟨u, hu, rfl⟩ := (answered_eq_next_iff _ _ _ _).mp h
        obtain ⟨hlen, -, -⟩ := (admitted_eq_true_iff _ _).mp hadm
        obtain ⟨rfl, -⟩ := (windowOffset_eq_some_iff _ _ _).mp hoff
        by_cases h0 : off = 0
        · rw [writeReg, if_pos h0, executeWord_eq_next] at hu
          cases hu
          exact .inr (.inl ⟨wordOfLanes lanes, if_pos ⟨by simp [h0], hlen⟩, rfl⟩)
        · rw [writeReg, if_neg h0] at hu
          cases hu
          exact .inl rfl
  | timedOutCommand host w =>
    obtain ⟨-, h⟩ := (fromHost_eq_next_iff _ _ _ _).mp h
    rw [executeWord_eq_next] at h
    cases h
    exact .inr (.inl ⟨w, rfl, rfl⟩)
  | resetDuringCommand host w =>
    obtain ⟨-, h⟩ := (fromHost_eq_next_iff _ _ _ _).mp h
    cases h
    exact .inr (.inr ⟨fun ⟨hnoReset, _⟩ => hnoReset, _, _, rfl⟩)
  | powerOnReset =>
    cases h
    exact .inr (.inr ⟨fun ⟨hnoReset, _⟩ => hnoReset, _, _, rfl⟩)

/-- A step leaves the engine, or executes the command word of the first waiting event, or serves a power-on reset. -/
theorem step_engine_cases {s t : State} (h : step s = .next t) :
    t.engine = s.engine ∨
      (∃ ev ∈ s.port.head?, ∃ w, ev.commandWord s.params.base = some w ∧ t.engine = s.engine.executeWord w) ∨
      (¬ s.NextKeepsKey ∧ t.engine.IsPorState) := by
  cases hp : s.port with
  | nil =>
    rw [step_nil hp] at h
    cases h
    exact .inl rfl
  | cons ev rest =>
    rw [step_cons hp] at h
    obtain he | ⟨w, hw, he⟩ | ⟨hk, he⟩ := serve_engine_cases h
    · exact .inl he
    · exact .inr (.inl ⟨ev, rfl, w, hw, he⟩)
    · exact .inr (.inr ⟨fun hs => hk ((nextKeepsKey_cons hp).mp hs), he⟩)

/-- What recording an error, every effect and power-on reset keep of the engine, every step keeps. -/
theorem step_keeps_engine {P : Engine → Prop} (hrecord : ∀ err e, P e → P (e.record err))
    (hact : ∀ i e, failedCheck i e = none → P e → P (e.act i)) (hpor : ∀ e : Engine, e.IsPorState → P e)
    {s t : State} (hs : P s.engine) (h : step s = .next t) : P t.engine := by
  obtain he | ⟨-, -, w, -, he⟩ | ⟨-, he⟩ := step_engine_cases h
  · rwa [he]
  · rw [he, Engine.executeWord]
    cases decode w with
    | error r => exact hrecord _ _ hs
    | ok i =>
      obtain ⟨err, -, hi⟩ | ⟨hcheck, hi⟩ := execute_cases s.engine i
      · simpa only [hi] using hrecord err _ hs
      · simpa only [hi] using hact i _ hcheck hs
  · exact hpor _ he

/-! ### The invariant of reachable engines (10_state.md R22, R40) -/

theorem keyLength_pos {L : U9} (h : L ≠ 0) : 0 < L.toNat := Nat.pos_of_ne_zero fun h0 => h (BitVec.eq_of_toNat_eq h0)

/-- The schedule exchanges entries of the identity (40_initialize.md R102). -/
theorem scheduleRun_isPermutation (E : Nat → Byte) (n : Nat) : IsPermutation (scheduleRun E n).1 := by
  induction n with
  | zero => exact identityTable_isPermutation
  | succ n ih =>
    rw [scheduleRun_succ]
    exact ih.swapEntries _ _

theorem keySchedule_isPermutation (K : Table) (L : U9) : IsPermutation (keySchedule K L).S :=
  scheduleRun_isPermutation _ 256

/-- A keystream step exchanges two entries (41_keystream.md R137). -/
theorem step_isPermutation {g : Generator} (h : IsPermutation g.S) : IsPermutation g.step.S :=
  h.swapEntries _ _

theorem inv_of_isPorState {e : Engine} (h : e.IsPorState) : e.Inv := by
  obtain ⟨S, K, rfl⟩ := h
  exact ⟨by simp, by simp, nofun, nofun, by simp⟩

/-- A recorded code is one of 1 to 4 (60_exceptions.md R201). -/
theorem recordError_le_four {err : BitVec 4} (h : err.toNat ≤ 4) (c : CommandError) :
    (recordError err c.code).toNat ≤ 4 := by
  unfold recordError
  split
  · cases c <;> decide
  · exact h

theorem Engine.Inv.record {e : Engine} (h : e.Inv) (err : CommandError) : (e.record err).Inv :=
  { h with errorCode := recordError_le_four h.errorCode err }

/-- A committed staging key has a length of 1 to 256 (40_initialize.md R103, R104). -/
theorem Engine.Inv.construct {e : Engine} (h : e.Inv) (hKBL : e.KBL ≠ 0) : e.construct.Inv where
  stagingLength := by simpa using h.stagingLength
  keyLengthZero := by simpa using hKBL
  keyLength _ := by
    rw [Engine.construct_KL]
    exact ⟨keyLength_pos hKBL, h.stagingLength⟩
  permutation _ := by simpa using keySchedule_isPermutation e.KB e.KBL
  errorCode := by simpa using h.errorCode

/-- Replacing the generator keeps the invariant if the new table is a permutation while KEYED. -/
theorem Engine.Inv.setGenerator {e : Engine} (h : e.Inv) {g : Generator} (hg : e.MODE = .keyed → IsPermutation g.S) :
    (e.setGenerator g).Inv :=
  { h with permutation := hg }

theorem Engine.Inv.setRESULT {e : Engine} (h : e.Inv) (v : U16) : (e.setRESULT v).Inv := { h with }

theorem Engine.Inv.keystream {e : Engine} (h : e.Inv) (f : U16 → U16) : (e.keystream f).Inv :=
  (h.setGenerator fun hm => step_isPermutation (h.permutation hm)).setRESULT _

theorem Engine.Inv.act {e : Engine} {i : Instr} (h : e.Inv) (hcheck : failedCheck i e = none) : (e.act i).Inv := by
  obtain ⟨-, hlen, hinit⟩ := (failedCheck_eq_none_iff i e).mp hcheck
  cases i with
  | setlen len => exact { h with stagingLength := hlen len rfl }
  | keywr idx byte => exact { h with }
  | init => exact h.construct (hinit rfl)
  | next => exact h.keystream fun ks => ks
  | proc unit => exact h.keystream fun ks => unit ^^^ ks
  | reset => exact h.setGenerator fun _ => keySchedule_isPermutation _ _
  | keyrd idx => exact h.setRESULT _
  | srd idx => exact h.setRESULT _
  | clrerr => exact { h with errorCode := Nat.zero_le 4 }

/-- Settles O45: recording an error, every effect and power-on reset keep the invariant. -/
theorem stepKeepsTheEngineInvariant : Obligations.StepKeepsTheEngineInvariant := fun _ _ =>
  step_keeps_engine (fun err _ h => h.record err) (fun _ _ hcheck h => h.act hcheck) fun _ => inv_of_isPorState

/-! ### The keystream trajectory (10_state.md R41) -/

/-- A power-on engine is UNINIT, so it is on the trajectory of no key. -/
theorem onTrajectory_of_isPorState {e : Engine} (h : e.IsPorState) : e.OnTrajectory := by
  obtain ⟨S, K, rfl⟩ := h
  exact nofun

/-- A keystream step takes the generator one further. -/
theorem Engine.OnTrajectory.keystream {e : Engine} (h : e.OnTrajectory) (f : U16 → U16) :
    (e.keystream f).OnTrajectory := by
  intro hm
  obtain ⟨n, hn⟩ := h (by simpa using hm)
  exact ⟨n + 1, by simp [Generator.steps_succ, hn]⟩

/-- INIT and RESET put the generator at the start of its key's trajectory. -/
theorem Engine.OnTrajectory.act {e : Engine} (h : e.OnTrajectory) (i : Instr) : (e.act i).OnTrajectory := by
  cases i with
  | init => exact fun _ => ⟨0, by simp [Engine.act]⟩
  | reset => exact fun _ => ⟨0, by simp [Engine.act]⟩
  | next => exact h.keystream fun ks => ks
  | proc unit => exact h.keystream fun ks => unit ^^^ ks
  | setlen | keywr | keyrd | srd | clrerr => exact h

/-- Settles O46: recording an error, every effect and power-on reset keep the engine on its trajectory. -/
theorem stepKeepsTheKeystreamTrajectory : Obligations.StepKeepsTheKeystreamTrajectory := fun _ _ =>
  step_keeps_engine (fun _ _ h => h) (fun i _ _ h => h.act i) fun _ => onTrajectory_of_isPorState

/-- Settles O44. -/
theorem powerOnStatesSatisfyTheInvariant : Obligations.PowerOnStatesSatisfyTheInvariant :=
  ⟨⟨_, _, rfl⟩, fun _ h => ⟨inv_of_isPorState h, onTrajectory_of_isPorState h⟩⟩

/-! ### The committed key (10_state.md R25, R27) -/

/-- Only the word of INIT, with a non-empty staging key, writes the committed key and MODE. -/
theorem executeWord_committedKey {e : Engine} {w : Word} (h : w = encode .init → e.KBL = 0) :
    (e.executeWord w).K = e.K ∧ (e.executeWord w).KL = e.KL ∧ (e.executeWord w).MODE = e.MODE := by
  unfold Engine.executeWord
  cases hw : decode w with
  | error r => exact ⟨rfl, rfl, rfl⟩
  | ok i =>
    obtain ⟨err, -, he⟩ | ⟨hcheck, he⟩ := execute_cases e i <;> simp only [he]
    · exact ⟨rfl, rfl, rfl⟩
    · refine act_committedKey e fun hi => ?_
      obtain ⟨-, -, hinit⟩ := (failedCheck_eq_none_iff i e).mp hcheck
      exact hinit hi (h (hi ▸ (encode_of_decode hw).symm))

/-- Settles O49: the served event's word is not that of a successful INIT, and the event is no power-on reset. -/
theorem stepKeepsTheCommittedKey : Obligations.StepKeepsTheCommittedKey := by
  intro s t hkeep h
  obtain he | ⟨ev, hev, w, hw, he⟩ | ⟨hpor, -⟩ := step_engine_cases h
  · exact he ▸ ⟨rfl, rfl, rfl⟩
  · obtain ⟨-, hinit⟩ := hkeep ev hev
    exact he ▸ executeWord_committedKey fun h => hinit (h ▸ hw)
  · exact absurd hkeep hpor

/-! ### What no access can see of the power-on contents (10_state.md R42, R25) -/

/-- The schedule reads the key below its length only (40_initialize.md R102). -/
theorem keySchedule_congr {K K' : Table} {L : U9}
    (h : ∀ n : Byte, n.toNat < L.toNat → readEntry K n = readEntry K' n) : keySchedule K L = keySchedule K' L := by
  have hE : extendedKey K L = extendedKey K' L := by
    funext i
    by_cases hL : L = 0
    · simp [extendedKey, hL]
    · rw [extendedKey_of_ne_zero K hL, extendedKey_of_ne_zero K' hL]
      refine h _ (lt_of_le_of_lt ?_ (Nat.mod_lt i (keyLength_pos hL)))
      rw [BitVec.toNat_ofNat]
      exact Nat.mod_le _ _
  rw [keySchedule, hE, keySchedule]

/-- KEYRD shows the key below its length only (43_inspect_control.md R170). -/
theorem shownKeyCode_congr {K K' : Table} {L : U9}
    (h : ∀ n : Byte, n.toNat < L.toNat → readEntry K n = readEntry K' n) (idx : Byte) :
    shownKeyCode K L idx = shownKeyCode K' L idx := by
  unfold shownKeyCode
  split
  · exact h idx ‹_›
  · rfl

namespace Engine.Indistinguishable

variable {e f : Engine} (h : e.Indistinguishable f)
include h

theorem toGenerator_eq (hm : e.MODE = .keyed) : e.toGenerator = f.toGenerator := by
  obtain ⟨hI, hJ⟩ := h.cursors
  change Generator.mk e.S e.I e.J = ⟨f.S, f.I, f.J⟩
  rw [h.permutation hm, hI, hJ]

theorem readReg_eq (off : Nat) : readReg e off = readReg f off := by
  obtain ⟨hI, hJ⟩ := h.cursors
  obtain ⟨-, hKBL⟩ := h.staging
  obtain ⟨hMODE, hERR⟩ := h.status
  simp only [readReg, statusWord, hI, hJ, hKBL, hMODE, hERR, h.keyLength, h.result]

theorem failedCheck_eq (i : Instr) : failedCheck i e = failedCheck i f := by
  obtain ⟨-, hKBL⟩ := h.staging
  obtain ⟨hMODE, -⟩ := h.status
  cases i <;> simp only [failedCheck, hKBL, hMODE]

theorem setGenerator (g : Generator) : (e.setGenerator g).Indistinguishable (f.setGenerator g) :=
  { h with cursors := ⟨rfl, rfl⟩, permutation := fun _ => rfl }

theorem setERR (c : BitVec 4) : (e.setERR c).Indistinguishable (f.setERR c) :=
  { h with status := ⟨h.status.1, rfl⟩ }

theorem setRESULT (v : U16) : (e.setRESULT v).Indistinguishable (f.setRESULT v) := { h with result := rfl }

theorem record (err : CommandError) : (e.record err).Indistinguishable (f.record err) := by
  obtain ⟨-, hERR⟩ := h.status
  rw [Engine.record, hERR]
  exact h.setERR _

theorem keystream (hm : e.MODE = .keyed) (op : U16 → U16) :
    (e.keystream op).Indistinguishable (f.keystream op) := by
  rw [Engine.keystream, Engine.keystream, h.toGenerator_eq hm]
  exact (h.setGenerator _).setRESULT _

theorem rekey (hm : e.MODE = .keyed) : e.rekey.Indistinguishable f.rekey := by
  rw [Engine.rekey, Engine.rekey, keySchedule_congr (h.key hm), h.keyLength]
  exact h.setGenerator _

/-- INIT replaces everything two engines may differ in by what the equal staging keys give. -/
theorem construct : e.construct.Indistinguishable f.construct := by
  obtain ⟨hKB, hKBL⟩ := h.staging
  obtain ⟨-, hERR⟩ := h.status
  have hgen : e.construct.toGenerator = f.construct.toGenerator := by simp [hKB, hKBL]
  constructor
  case cursors => simp
  case staging => simp [hKB, hKBL]
  case keyLength => simp [hKBL]
  case status => simp [hERR]
  case result => simp [h.result]
  case permutation => exact fun _ => congrArg Generator.S hgen
  case key => simp [hKB]

theorem act {i : Instr} (hcheck : failedCheck i e = none) : (e.act i).Indistinguishable (f.act i) := by
  obtain ⟨hKB, hKBL⟩ := h.staging
  have hm : needsKeyed i = true → e.MODE = .keyed := fun hi => by
    cases hmode : e.MODE with
    | keyed => rfl
    | uninit => exact absurd (failedCheck_uninit hi hmode) (by simp [hcheck])
  cases i with
  | setlen len => exact { h with staging := ⟨hKB, rfl⟩ }
  | keywr idx byte => exact { h with staging := ⟨by simp [Engine.act, hKB], hKBL⟩ }
  | init => exact h.construct
  | next => exact h.keystream (hm rfl) fun ks => ks
  | proc unit => exact h.keystream (hm rfl) fun ks => unit ^^^ ks
  | reset => exact h.rekey (hm rfl)
  | keyrd idx =>
    rw [Engine.act, Engine.act, shownKeyCode_congr (h.key (hm rfl)), h.keyLength]
    exact h.setRESULT _
  | srd idx =>
    rw [Engine.act, Engine.act, h.permutation (hm rfl)]
    exact h.setRESULT _
  | clrerr => exact h.setERR 0

theorem execute (i : Instr) : (e.execute i).Indistinguishable (f.execute i) := by
  rw [Engine.execute, Engine.execute, ← h.failedCheck_eq]
  cases hcheck : failedCheck i e with
  | none => exact h.act hcheck
  | some err => exact h.record err

theorem executeWord (w : Word) : (e.executeWord w).Indistinguishable (f.executeWord w) := by
  unfold Engine.executeWord
  cases decode w with
  | ok i => exact h.execute i
  | error r => exact h.record .illegalCommand

end Engine.Indistinguishable

/-- Power-on resets leave engines no access can tell apart. -/
theorem afterPor_indistinguishable (S S' K K' : Table) :
    (Engine.afterPor S K).Indistinguishable (Engine.afterPor S' K') :=
  ⟨⟨rfl, rfl⟩, ⟨rfl, rfl⟩, rfl, ⟨rfl, rfl⟩, rfl, nofun, nofun⟩

theorem State.Indistinguishable.setPort {s s' : State} (h : s.Indistinguishable s') (p : List Event) :
    (s.setPort p).Indistinguishable (s'.setPort p) :=
  { h with port := rfl }

theorem State.Indistinguishable.respond {s s' : State} (h : s.Indistinguishable s') (host : Nat) (a : Answer) :
    (s.respond host a).Indistinguishable (s'.respond host a) :=
  { h with responses := by simp [h.responses] }

/-- Where the first outcome is a next state, so is the second, and no host can tell the two apart. -/
def OutcomesAlike (o o' : Host.Outcome State Fault Refusal) : Prop :=
  ∀ t, o = .next t → ∃ t', o' = .next t' ∧ t.Indistinguishable t'

theorem outcomesAlike_next {t t' : State} (h : t.Indistinguishable t') : OutcomesAlike (.next t) (.next t') := by
  intro u hu
  cases hu
  exact ⟨t', rfl, h⟩

theorem OutcomesAlike.answered {o o' : Host.Outcome State Fault Refusal} (h : OutcomesAlike o o') (host : Nat)
    (a : Answer) : OutcomesAlike (answered host a o) (answered host a o') := by
  intro t ht
  obtain ⟨u, hu, rfl⟩ := (answered_eq_next_iff _ _ _ _).mp ht
  obtain ⟨u', hu', halike⟩ := h u hu
  exact ⟨_, (answered_eq_next_iff _ _ _ _).mpr ⟨u', hu', rfl⟩, halike.respond host a⟩

namespace State.Indistinguishable

variable {s s' : State} (h : s.Indistinguishable s')
include h

theorem powerOnReset : s.powerOnReset.Indistinguishable s'.powerOnReset :=
  { h with engine := afterPor_indistinguishable _ _ _ _ }

theorem fromHost {o o' : Host.Outcome State Fault Refusal} (ho : OutcomesAlike o o') (host : Nat) :
    OutcomesAlike (fromHost host s o) (fromHost host s' o') := by
  intro t ht
  obtain ⟨hlt, ht⟩ := (fromHost_eq_next_iff _ _ _ _).mp ht
  rw [fromHost_of_lt (h.params ▸ hlt)]
  exact ho t ht

theorem executeWord (w : Word) : OutcomesAlike (executeWord w s) (executeWord w s') := by
  rw [executeWord_eq_next, executeWord_eq_next]
  exact outcomesAlike_next { h with engine := h.engine.executeWord w }

theorem writeReg (off : Nat) (w : Word) : OutcomesAlike (writeReg off w s) (writeReg off w s') := by
  unfold Machine.writeReg
  split
  · exact h.executeWord w
  · exact outcomesAlike_next h

theorem serveWrite (host addr : Nat) (lanes : List Byte) :
    OutcomesAlike (serveWrite host addr lanes s) (serveWrite host addr lanes s') := by
  unfold Machine.serveWrite
  rw [← h.params]
  cases windowOffset s.params.base addr with
  | none => exact outcomesAlike_next (h.respond host .notDecoded)
  | some off =>
    cases hadm : admitted off lanes.length with
    | true => simpa [hadm] using (h.writeReg off (wordOfLanes lanes)).answered host .written
    | false => simpa [hadm] using outcomesAlike_next (h.respond host .busError)

/-- A read answers alike: the window is at the same base and every register holds the same word. -/
theorem readAnswer_eq (addr n : Nat) : readAnswer s addr n = readAnswer s' addr n := by
  simp only [readAnswer, h.params, h.engine.readReg_eq]

theorem serve (ev : Event) : OutcomesAlike (serve ev s) (serve ev s') := by
  cases ev with
  | access host a =>
    refine h.fromHost ?_ host
    cases a with
    | read addr n =>
      rw [serveAccess, serveAccess, h.readAnswer_eq]
      exact outcomesAlike_next (h.respond host _)
    | write addr lanes => exact h.serveWrite host addr lanes
  | timedOutCommand host w => exact h.fromHost ((h.executeWord w).answered host .timedOut) host
  | resetDuringCommand host w => exact h.fromHost (outcomesAlike_next (h.powerOnReset.respond host .abandoned)) host
  | powerOnReset => exact outcomesAlike_next h.powerOnReset

end State.Indistinguishable

/-- Settles O48: two machines no host can tell apart serve the same event alike. -/
theorem powerOnContentsAreUnobservable : Obligations.PowerOnContentsAreUnobservable := by
  intro s s' t h ht
  cases hp : s.port with
  | nil =>
    rw [step_nil hp] at ht
    cases ht
    exact ⟨s', step_nil (h.port ▸ hp), h⟩
  | cons ev rest =>
    rw [step_cons hp] at ht
    rw [step_cons (h.port ▸ hp)]
    exact (h.setPort rest).serve ev t ht

/-! ### Word writes to the window (20_memory.md R52, R66) -/

section Write

variable {s : State} {h : Nat} {lanes : List Byte} {rest : List Event}

/-- A step on an admitted write is the write of the register, acknowledged. -/
theorem step_admittedWrite {off : Nat} (hp : s.port = .access h (.write (s.params.base + off) lanes) :: rest)
    (hh : h < s.params.nHosts) (hlen : lanes.length = 4) (halign : off % 4 = 0) (hoff : off ≤ 0x1C) :
    step s = answered h .written (writeReg off (wordOfLanes lanes) (s.setPort rest)) := by
  have hwindow : windowOffset s.params.base (s.params.base + off) = some off :=
    (windowOffset_eq_some_iff _ _ _).mpr ⟨rfl, by omega⟩
  have hadm : admitted off lanes.length = true := (admitted_eq_true_iff _ _).mpr ⟨hlen, halign, hoff⟩
  rw [step_access hp hh]
  simp [serveAccess, serveWrite, hwindow, hadm]

/-- A step on a word write to CMD executes the word and acknowledges the write. -/
theorem step_cmdWrite (hp : s.port = .access h (.write s.params.base lanes) :: rest) (hh : h < s.params.nHosts)
    (hlen : lanes.length = 4) :
    step s = answered h .written (executeWord (wordOfLanes lanes) (s.setPort rest)) :=
  step_admittedWrite (off := 0) hp hh hlen rfl (Nat.zero_le _)

end Write

/-- Settles O34: the offsets are admitted and none of them is that of CMD. -/
theorem writesOutsideCmdAreIgnored : Obligations.WritesOutsideCmdAreIgnored := by
  intro s h off lanes rest hp hh hlen hoff
  have hoffsets : off % 4 = 0 ∧ off ≤ 0x1C ∧ off ≠ 0 := by
    simp only [List.mem_cons, List.not_mem_nil, or_false] at hoff
    omega
  obtain ⟨halign, hle, hcmd⟩ := hoffsets
  rw [step_admittedWrite hp hh hlen halign hle, writeReg, if_neg hcmd]
  rfl

/-- Settles O35: the CMD write executes its word, which is a command or raises IllegalCommand. -/
theorem stepRunsTheDecodedCommand : Obligations.StepRunsTheDecodedCommand := by
  intro s h lanes rest hp hh hlen
  rw [step_cmdWrite hp hh hlen, executeWord_eq_next, Engine.executeWord]
  constructor
  · intro i hi
    rw [hi]
    exact ⟨_, exec_eq_next i (s.setPort rest), rfl⟩
  · intro r hr
    rw [hr]
    rfl

theorem tableWord_toNat (w : Word) : tableWord 32 w.toNat = w := by
  simp [tableWord, Nat.mod_eq_of_lt w.isLt]

/-- Settles O36: the placed word is a CMD write of host 0, and it decodes to the command. -/
theorem placedCommandRunsNext : Obligations.PlacedCommandRunsNext := by
  intro s i
  obtain ⟨hexec, -⟩ := stepRunsTheDecodedCommand (s.withFetchWord 32 (encode i).toNat) 0 _ s.port rfl
    (Nat.lt_of_lt_of_le Nat.zero_lt_one (Nat.le_max_left _ _)) rfl
  exact hexec i (by rw [wordOfLanes_lanesOfWord, tableWord_toNat, decode_encode])

/-! ### Power-on reset (10_state.md R42) -/

/-- Settles O41. -/
theorem resetStateHasTheSpecifiedValues : Obligations.ResetStateHasTheSpecifiedValues :=
  ⟨rfl, rfl, rfl, rfl, rfl, rfl, rfl, readEntry_replicate 0⟩

/-- After power-on reset every register reads 0. -/
theorem readReg_afterPor (S K : Table) (off : Nat) : readReg (Engine.afterPor S K) off = 0 := by
  unfold readReg
  split <;> simp [statusWord, Mode.bit]

/-- Settles O42. -/
theorem powerOnResetGivesTheResetValues : Obligations.PowerOnResetGivesTheResetValues := fun _ _ hp =>
  ⟨_, step_powerOnReset hp, rfl, rfl, rfl, rfl, readEntry_replicate 0, rfl, rfl, rfl,
    fun off _ => readReg_afterPor _ _ off, rfl, rfl, rfl⟩

end Sys2Proof.Machine

namespace Sys2Proof

/-! ### Byte lanes and fields as numbers (20_memory.md R53, R65) -/

/-- A field above another one: where the low field fits below bit `n` and the shifted one in the word, the word is
their weighted sum. -/
theorem toNat_shiftLeft_or {w n : Nat} {x y : BitVec w} (hx : x.toNat < 2 ^ n) (hy : 2 ^ n * y.toNat < 2 ^ w) :
    (y <<< n ||| x).toNat = 2 ^ n * y.toNat + x.toNat := by
  rw [BitVec.toNat_or, BitVec.toNat_shiftLeft, Nat.shiftLeft_eq, Nat.mul_comm, Nat.mod_eq_of_lt hy,
    Nat.two_pow_add_eq_or_of_lt hx]

/-- The first lane is the low byte of the word. -/
theorem wordOfLanes_cons_toNat (b : Byte) {bs : List Byte} (h : (wordOfLanes bs).toNat < 2 ^ 24) :
    (wordOfLanes (b :: bs)).toNat = b.toNat + 2 ^ 8 * (wordOfLanes bs).toNat := by
  have hb : (b.setWidth 32).toNat = b.toNat := BitVec.toNat_setWidth_of_le (by decide)
  rw [wordOfLanes, BitVec.or_comm, toNat_shiftLeft_or (by omega) (by omega), hb, Nat.add_comm]

/-- Four lanes weigh 1, 2^8, 2^16 and 2^24, from the lowest address up (20_memory.md R53). -/
theorem wordOfLanes_toNat (b0 b1 b2 b3 : Byte) :
    (wordOfLanes [b0, b1, b2, b3]).toNat =
      b0.toNat + 2 ^ 8 * b1.toNat + 2 ^ 16 * b2.toNat + 2 ^ 24 * b3.toNat := by
  have h0 : (wordOfLanes []).toNat = 0 := rfl
  have h1 := wordOfLanes_cons_toNat b3 (bs := []) (by omega)
  have h2 := wordOfLanes_cons_toNat b2 (bs := [b3]) (by omega)
  have h3 := wordOfLanes_cons_toNat b1 (bs := [b2, b3]) (by omega)
  have h4 := wordOfLanes_cons_toNat b0 (bs := [b1, b2, b3]) (by omega)
  omega

/-- The byte at bit `n` of a word, as a number. -/
theorem extractLsb'_eq_of_toNat {w : Word} {n : Nat} {b : Byte} (h : w.toNat / 2 ^ n % 2 ^ 8 = b.toNat) :
    w.extractLsb' n 8 = b := by
  apply BitVec.eq_of_toNat_eq
  rw [BitVec.extractLsb'_toNat, Nat.shiftRight_eq_div_pow, h]

/-- A word is laid out in the lanes whose weighted sum it is (20_memory.md R53). -/
theorem lanesOfWord_of_toNat {w : Word} {b0 b1 b2 b3 : Byte}
    (h : w.toNat = b0.toNat + 2 ^ 8 * b1.toNat + 2 ^ 16 * b2.toNat + 2 ^ 24 * b3.toNat) :
    lanesOfWord w = [b0, b1, b2, b3] := by
  have h0 : w.extractLsb' 0 8 = b0 := extractLsb'_eq_of_toNat (by omega)
  have h1 : w.extractLsb' 8 8 = b1 := extractLsb'_eq_of_toNat (by omega)
  have h2 : w.extractLsb' 16 8 = b2 := extractLsb'_eq_of_toNat (by omega)
  have h3 : w.extractLsb' 24 8 = b3 := extractLsb'_eq_of_toNat (by omega)
  rw [lanesOfWord, h0, h1, h2, h3]

/-- Settles O6. -/
theorem lanesCarryTheWordLittleEndian : Obligations.LanesCarryTheWordLittleEndian := fun b0 b1 b2 b3 =>
  ⟨wordOfLanes_toNat b0 b1 b2 b3, lanesOfWord_of_toNat (wordOfLanes_toNat b0 b1 b2 b3)⟩

end Sys2Proof

namespace Sys2Proof.Machine

/-! ### The words of the registers (20_memory.md R65) -/

@[simp] theorem Mode.bit_toNat (m : Mode) : m.bit.toNat = if m = .keyed then 1 else 0 := by
  cases m <;> rfl

/-- ERR stands above MODE (10_state.md R35). -/
theorem statusWord_toNat (e : Engine) :
    (statusWord e).toNat = 2 ^ 4 * e.ERR.toNat + (if e.MODE = .keyed then 1 else 0) := by
  have herr : (e.ERR.setWidth 32).toNat = e.ERR.toNat := BitVec.toNat_setWidth_of_le (by decide)
  have hbit : e.MODE.bit.toNat ≤ 1 := by cases e.MODE <;> decide
  rw [statusWord, toNat_shiftLeft_or (by omega) (by omega), herr, Mode.bit_toNat]

/-- KBL stands above KL (10_state.md R37). -/
theorem readReg_keylen_toNat (e : Engine) :
    (readReg e 0x0C).toNat = 2 ^ 16 * e.KBL.toNat + e.KL.toNat := by
  have hKBL : (e.KBL.setWidth 32).toNat = e.KBL.toNat := BitVec.toNat_setWidth_of_le (by decide)
  have hKL : (e.KL.setWidth 32).toNat = e.KL.toNat := BitVec.toNat_setWidth_of_le (by decide)
  rw [readReg, toNat_shiftLeft_or (by omega) (by omega), hKBL, hKL]

/-- J stands above I (10_state.md R38). -/
theorem readReg_cursor_toNat (e : Engine) :
    (readReg e 0x10).toNat = 2 ^ 8 * e.J.toNat + e.I.toNat := by
  have hJ : (e.J.setWidth 32).toNat = e.J.toNat := BitVec.toNat_setWidth_of_le (by decide)
  have hI : (e.I.setWidth 32).toNat = e.I.toNat := BitVec.toNat_setWidth_of_le (by decide)
  rw [readReg, toNat_shiftLeft_or (by omega) (by omega), hJ, hI]

/-- Settles O30. -/
theorem registerWordsHoldTheirFields : Obligations.RegisterWordsHoldTheirFields := fun e =>
  ⟨rfl, statusWord_toNat e, BitVec.toNat_setWidth_of_le (by decide), readReg_keylen_toNat e, readReg_cursor_toNat e,
    rfl, rfl, rfl⟩

/-! ### Reads, and the accesses the engine refuses or does not decode (20_memory.md R51, R52, R55) -/

/-- An offset of the window is that of its address. -/
theorem windowOffset_add (base : Nat) {off : Nat} (h : off ≤ 0x1F) : windowOffset base (base + off) = some off :=
  (windowOffset_eq_some_iff _ _ _).mpr ⟨rfl, by omega⟩

section Access

variable {s : State} {h addr : Nat} {rest : List Event}

/-- A step on a read gives the host its answer and changes no state (20_memory.md R55). -/
theorem step_read {n : Nat} (hp : s.port = .access h (.read addr n) :: rest) (hh : h < s.params.nHosts) :
    step s = .next ((s.setPort rest).respond h (readAnswer s addr n)) :=
  step_access hp hh

/-- A step on a write (20_memory.md R52). -/
theorem step_write {lanes : List Byte} (hp : s.port = .access h (.write addr lanes) :: rest)
    (hh : h < s.params.nHosts) : step s = serveWrite h addr lanes (s.setPort rest) :=
  step_access hp hh

end Access

/-- An access that is not one of an aligned word is not admitted (20_memory.md R52). -/
theorem admitted_eq_false {off n : Nat} (h : ¬(n = 4 ∧ off % 4 = 0)) : admitted off n = false := by
  rw [← Bool.not_eq_true, admitted_eq_true_iff]
  exact fun ⟨hn, halign, _⟩ => h ⟨hn, halign⟩

/-- Settles O31. -/
theorem admittedReadsAnswerTheRegister : Obligations.AdmittedReadsAnswerTheRegister := by
  intro s h off rest hp hh halign hoff
  have hadm : admitted off 4 = true := (admitted_eq_true_iff _ _).mpr ⟨rfl, halign, hoff⟩
  have hanswer : readAnswer s (s.params.base + off) 4 = .data (readReg s.engine off) := by
    simp [readAnswer, windowOffset_add _ (Nat.le_trans hoff (by decide)), hadm]
  rw [step_read hp hh, hanswer]
  rfl

/-- Settles O32: the address is in the window, and the admission test fails. -/
theorem otherAccessesInTheWindowGetBusErrors : Obligations.OtherAccessesInTheWindowGetBusErrors := by
  intro s h off rest hh hoff
  have hwindow := windowOffset_add s.params.base hoff
  constructor
  · intro n hp hn
    have hanswer : readAnswer s (s.params.base + off) n = .busError := by
      simp [readAnswer, hwindow, admitted_eq_false hn]
    rw [step_read hp hh, hanswer]
    rfl
  · intro lanes hp hlanes
    have hserve : serveWrite h (s.params.base + off) lanes (s.setPort rest) =
        .next ((s.setPort rest).respond h .busError) := by
      simp [serveWrite, hwindow, admitted_eq_false hlanes]
    rw [step_write hp hh, hserve]
    rfl

/-- Settles O33: the address has no offset in the window. -/
theorem addressesOutsideTheWindowAreNotDecoded : Obligations.AddressesOutsideTheWindowAreNotDecoded := by
  intro s h addr rest hh haddr
  have hwindow : windowOffset s.params.base addr = none := (windowOffset_eq_none_iff _ _).mpr (by omega)
  constructor
  · intro n hp
    have hanswer : readAnswer s addr n = .notDecoded := by rw [readAnswer, hwindow]
    rw [step_read hp hh, hanswer]
    rfl
  · intro lanes hp
    have hserve : serveWrite h addr lanes (s.setPort rest) = .next ((s.setPort rest).respond h .notDecoded) := by
      simp [serveWrite, hwindow]
    rw [step_write hp hh, hserve]
    rfl

/-! ### What serving an event leaves of the outside world (20_memory.md R57) -/

/-- From `s` to `t` the parameters and the waiting events stay, and the answers grow by one to the host, if there is
one. -/
def AnswersHost (host : Option Nat) (s t : State) : Prop :=
  t.params = s.params ∧ t.port = s.port ∧
    ∃ a : Answer, t.responses = s.responses ++ host.toList.map fun h => ⟨h, a⟩

/-- What writes at most the engine and then answers its host gives that one answer. -/
theorem answersHost_of_answered {s t : State} {o : Host.Outcome State Fault Refusal} {host : Nat} {a : Answer}
    (ho : ∃ e : Engine, o = .next (s.setEngine e)) (h : answered host a o = .next t) :
    AnswersHost (some host) s t := by
  obtain ⟨e, rfl⟩ := ho
  cases h
  exact ⟨rfl, rfl, a, rfl⟩

/-- A write is answered once, outside the window, refused and admitted alike. -/
theorem serveWrite_answersHost {host addr : Nat} {lanes : List Byte} {s t : State}
    (h : serveWrite host addr lanes s = .next t) : AnswersHost (some host) s t := by
  obtain ⟨-, hw⟩ | ⟨off, -, ⟨-, hw⟩ | ⟨-, hw⟩⟩ := serveWrite_cases host addr lanes s <;> rw [hw] at h
  · cases h
    exact ⟨rfl, rfl, .notDecoded, rfl⟩
  · cases h
    exact ⟨rfl, rfl, .busError, rfl⟩
  · exact answersHost_of_answered (writeReg_writes_only_engine off _ s) h

/-- An event of a host gets one answer, a power-on reset none. -/
theorem serve_answersHost {ev : Event} {s t : State} (h : serve ev s = .next t) : AnswersHost ev.host s t := by
  cases ev with
  | access host a =>
    obtain ⟨-, h⟩ := (fromHost_eq_next_iff _ _ _ _).mp h
    cases a with
    | read addr n =>
      cases h
      exact ⟨rfl, rfl, _, rfl⟩
    | write addr lanes => exact serveWrite_answersHost h
  | timedOutCommand host w =>
    obtain ⟨-, h⟩ := (fromHost_eq_next_iff _ _ _ _).mp h
    exact answersHost_of_answered (executeWord_writes_only_engine w s) h
  | resetDuringCommand host w =>
    obtain ⟨-, h⟩ := (fromHost_eq_next_iff _ _ _ _).mp h
    cases h
    exact ⟨rfl, rfl, .abandoned, rfl⟩
  | powerOnReset =>
    cases h
    exact ⟨rfl, rfl, .abandoned, (List.append_nil _).symm⟩

/-- Settles O37: an empty port leaves everything, and else the first event leaves the port and is served. -/
theorem eventsAreServedInArrivalOrder : Obligations.EventsAreServedInArrivalOrder := by
  intro s t h
  cases hp : s.port with
  | nil =>
    rw [step_nil hp] at h
    cases h
    exact ⟨hp, rfl, [], (List.append_nil _).symm, rfl⟩
  | cons ev rest =>
    rw [step_cons hp] at h
    obtain ⟨hparams, hport, a, hresponses⟩ := serve_answersHost h
    refine ⟨hport, hparams, _, hresponses, ?_⟩
    cases hhost : ev.host <;> simp [hhost]

/-! ### The hosts' programs (20_memory.md R58, R59) -/

/-- The programs that remain once an event has been served: its own host's has lost its first event. -/
def remainingPrograms (ev : Event) (programs : List (List Event)) : List (List Event) :=
  programs.mapIdx fun h p => if ev.host = some h then p.tail else p

@[simp] theorem remainingPrograms_length (ev : Event) (programs : List (List Event)) :
    (remainingPrograms ev programs).length = programs.length := by
  simp [remainingPrograms]

theorem getElem?_remainingPrograms (ev : Event) (programs : List (List Event)) (h : Nat) :
    (remainingPrograms ev programs)[h]? =
      if ev.host = some h then programs[h]?.map List.tail else programs[h]? := by
  rw [remainingPrograms, List.getElem?_mapIdx]
  split <;> simp

/-- An event of a host is the first of that host's program, and is in no other host's. -/
theorem programOf_cons (h : Nat) (ev : Event) (rest : List Event) :
    programOf h (ev :: rest) = if ev.host = some h then ev :: programOf h rest else programOf h rest := by
  simp [programOf, List.filter_cons]

/-- Serving the first event of an arrival order leaves an interleaving of the programs that remain. -/
theorem Interleaves.tail {programs : List (List Event)} {ev : Event} {rest : List Event}
    (h : Interleaves programs (ev :: rest)) : Interleaves (remainingPrograms ev programs) rest := by
  obtain ⟨hhosts, hprograms⟩ := h
  rw [Interleaves, remainingPrograms_length]
  refine ⟨fun ev' hmem => hhosts ev' (List.mem_cons_of_mem _ hmem), fun host hlt => ?_⟩
  rw [getElem?_remainingPrograms, hprograms host hlt, programOf_cons]
  split <;> rfl

/-- Settles O38: the port loses its first event alone, so the programs that remain are interleaved. -/
theorem eachHostKeepsItsProgramOrder : Obligations.EachHostKeepsItsProgramOrder := by
  intro s t ev rest hp hstep programs hprograms
  obtain ⟨hport, -⟩ := eventsAreServedInArrivalOrder s t hstep
  rw [hp] at hport hprograms
  exact ⟨remainingPrograms ev programs, hport ▸ hprograms.tail, remainingPrograms_length ev programs,
    getElem?_remainingPrograms ev programs⟩

end Sys2Proof.Machine

namespace Sys2Proof

/-! ### The command word on the bus (30_encoding.md R81, R84; 20_memory.md R53) -/

/-- The byte lanes of a word are decoded as the word. -/
@[simp] theorem decodeLanes_lanesOfWord (w : Word) : decodeLanes (lanesOfWord w) = (decode w).toOption := by
  simp [decodeLanes]

theorem decodeLanes_lanesOfWord_encode (i : Instr) : decodeLanes (lanesOfWord (encode i)) = some i := by
  rw [decodeLanes_lanesOfWord, decode_encode]
  rfl

/-- Settles O1. -/
theorem decodeOfEncodeIsTheCommand : Obligations.DecodeOfEncodeIsTheCommand := fun i =>
  ⟨decode_encode i, decodeLanes_lanesOfWord_encode i⟩

/-- Settles O2. -/
theorem encodeOfDecodeIsTheWord : Obligations.EncodeOfDecodeIsTheWord := fun _ _ => encode_of_decode

/-- Settles O5. -/
theorem writtenOutWordsDecode : Obligations.WrittenOutWordsDecode := by
  unfold Obligations.WrittenOutWordsDecode
  decide

/-! ### The match and mask rows (30_encoding.md R82) -/

/-- The word of a command is selected by the row of the command. -/
theorem row_selects_encode (i : Instr) : i.row.selects (encode i) = true := by
  cases i with
  | setlen len => exact Laws.MatchMask.setlen len
  | keywr idx byte => exact Laws.MatchMask.keywr idx byte
  | init => exact Laws.MatchMask.init
  | next => exact Laws.MatchMask.next
  | proc unit => exact Laws.MatchMask.proc unit
  | reset => exact Laws.MatchMask.reset
  | keyrd idx => exact Laws.MatchMask.keyrd idx
  | srd idx => exact Laws.MatchMask.srd idx
  | clrerr => exact Laws.MatchMask.clrerr

/-- Two words are equal when their three fields are. -/
theorem word_eq_iff_fields (w v : Word) :
    w = v ↔ opField w = opField v ∧ idxField w = idxField v ∧ dataField w = dataField v := by
  constructor
  · rintro rfl
    exact ⟨rfl, rfl, rfl⟩
  · rintro ⟨hop, hidx, hdata⟩
    rw [← packWord_fields w, hop, hidx, hdata, packWord_fields]

/-- A row tests each field under its own part of the mask. -/
theorem selects_iff_fields (r : OpcodeRow) (w : Word) :
    r.selects w = true ↔
      opField w &&& opField r.mask = opField r.pattern ∧ idxField w &&& idxField r.mask = idxField r.pattern ∧
        dataField w &&& dataField r.mask = dataField r.pattern := by
  rw [OpcodeRow.selects, beq_iff_eq, word_eq_iff_fields]
  simp only [opField, idxField, dataField, BitVec.extractLsb'_and]

/-- Every mask covers OP, and every pattern is zero below it. -/
theorem opcodeRows_fields {r : OpcodeRow} (hr : r ∈ opcodeRows) :
    opField r.mask = BitVec.allOnes 8 ∧ idxField r.pattern = 0 ∧ dataField r.pattern = 0 := by
  revert r
  decide

/-- A row of the table tests OP for its opcode and the masked bits of the other fields for zero. -/
theorem opcodeRows_selects_iff {r : OpcodeRow} (hr : r ∈ opcodeRows) (w : Word) :
    r.selects w = true ↔
      opField w = opField r.pattern ∧ idxField w &&& idxField r.mask = 0 ∧ dataField w &&& dataField r.mask = 0 := by
  obtain ⟨hmask, hidx, hdata⟩ := opcodeRows_fields hr
  rw [selects_iff_fields, hmask, hidx, hdata, BitVec.and_allOnes]

/-- The OP bytes of the rows differ. -/
theorem opcodeRows_opcodes_differ : opcodeRows.Pairwise fun r r' => opField r.pattern ≠ opField r'.pattern := by
  decide

theorem append_eq_zero_iff {m n : Nat} (x : BitVec m) (y : BitVec n) : x ++ y = 0 ↔ x = 0 ∧ y = 0 := by
  simp [← BitVec.toNat_inj, BitVec.toNat_append, Nat.shiftLeft_eq_zero_iff]

/-- Under a mask of its high bits alone, a value is zero when those bits are. -/
theorem and_highMask_eq_zero_iff {m n : Nat} (x : BitVec (m + n)) :
    x &&& (BitVec.allOnes m ++ 0#n) = 0 ↔ x.extractLsb' n m = 0 := by
  rw [← BitVec.extractLsb'_append_extractLsb' (x := x), BitVec.and_append, BitVec.and_allOnes, BitVec.and_zero,
    append_eq_zero_iff, BitVec.extractLsb'_append_extractLsb']
  exact and_iff_left rfl

/-- Under a full mask, a value is zero when it is. -/
theorem eq_zero_of_and_fullMask {n : Nat} {x : BitVec n} (h : x &&& BitVec.allOnes n = 0) : x = 0 :=
  BitVec.and_allOnes.symm.trans h

/-- A row of the table selects only words of its own command: the opcode picks the command, and the masked bits are
its must-be-zero fields. -/
theorem encode_of_selects {r : OpcodeRow} (hr : r ∈ opcodeRows) {w : Word} (h : r.selects w = true) :
    ∃ i, encode i = w ∧ i.row = r := by
  obtain ⟨hop, hidx, hdata⟩ := (opcodeRows_selects_iff hr w).mp h
  rw [← packWord_fields w, hop]
  simp only [opcodeRows, List.mem_cons, List.not_mem_nil, or_false] at hr
  obtain rfl | rfl | rfl | rfl | rfl | rfl | rfl | rfl | rfl := hr
  · have hlen := setWidth_lenOperand ((and_highMask_eq_zero_iff (m := 7) (n := 9) (dataField w)).mp hdata)
    exact ⟨.setlen (lenOperand (dataField w)), by rw [encode, hlen, eq_zero_of_and_fullMask hidx]; rfl, rfl⟩
  · have hbyte := setWidth_byteOperand ((and_highMask_eq_zero_iff (m := 8) (n := 8) (dataField w)).mp hdata)
    exact ⟨.keywr (idxField w) (byteOperand (dataField w)), by rw [encode, hbyte]; rfl, rfl⟩
  · exact ⟨.init, by rw [eq_zero_of_and_fullMask hidx, eq_zero_of_and_fullMask hdata]; rfl, rfl⟩
  · exact ⟨.next, by rw [eq_zero_of_and_fullMask hidx, eq_zero_of_and_fullMask hdata]; rfl, rfl⟩
  · exact ⟨.proc (dataField w), by rw [eq_zero_of_and_fullMask hidx]; rfl, rfl⟩
  · exact ⟨.reset, by rw [eq_zero_of_and_fullMask hidx, eq_zero_of_and_fullMask hdata]; rfl, rfl⟩
  · exact ⟨.keyrd (idxField w), by rw [eq_zero_of_and_fullMask hdata]; rfl, rfl⟩
  · exact ⟨.srd (idxField w), by rw [eq_zero_of_and_fullMask hdata]; rfl, rfl⟩
  · exact ⟨.clrerr, by rw [eq_zero_of_and_fullMask hidx, eq_zero_of_and_fullMask hdata]; rfl, rfl⟩

/-- Settles O3: a row selects a word when it selects the word of a command of the row, and the opcodes keep the rows
apart. -/
theorem matchAndMaskSelectTheDecodedRow : Obligations.MatchAndMaskSelectTheDecodedRow := by
  intro w
  constructor
  · intro r hr
    constructor
    · intro h
      obtain ⟨i, rfl, hi⟩ := encode_of_selects hr h
      exact ⟨i, decode_encode i, hi⟩
    · rintro ⟨i, hi, rfl⟩
      rw [← encode_of_decode hi]
      exact row_selects_encode i
  · refine opcodeRows_opcodes_differ.imp_of_mem fun hr hr' hne ⟨h, h'⟩ => hne ?_
    obtain ⟨hop, -⟩ := (opcodeRows_selects_iff hr w).mp h
    obtain ⟨hop', -⟩ := (opcodeRows_selects_iff hr' w).mp h'
    exact hop.symm.trans hop'

/-! ### The illegal words (30_encoding.md R85) -/

theorem acceptIf_eq_error_iff (zero : Bool) (op : Byte) (i : Instr) :
    (∃ r, acceptIf zero op i = .error r) ↔ zero = false := by
  cases zero <;> simp [acceptIf]

/-- A field is zero when its high and its low part are. -/
theorem extractLsb'_eq_zero_iff {k s m n : Nat} {x : BitVec k} :
    x.extractLsb' s (m + n) = 0 ↔ x.extractLsb' (s + n) m = 0 ∧ x.extractLsb' s n = 0 := by
  rw [← BitVec.extractLsb'_append_extractLsb'_eq_extractLsb' rfl]
  exact append_eq_zero_iff _ _

/-- A part of DATA is a part of the word. -/
theorem extractLsb'_dataField (w : Word) {s n : Nat} (h : s + n ≤ 16) :
    (dataField w).extractLsb' s n = w.extractLsb' s n := by
  rw [dataField, BitVec.extractLsb'_extractLsb'_of_le h]

/-- The must-be-zero bits of format L (30_encoding.md R81). -/
theorem formatL_zero_iff (w : Word) :
    w.extractLsb' 9 15 = 0 ↔ idxField w = 0 ∧ (dataField w).extractLsb' 9 7 = 0 := by
  rw [extractLsb'_dataField w (by decide)]
  exact extractLsb'_eq_zero_iff (m := 8) (n := 7)

/-- The must-be-zero bits of format N (30_encoding.md R81). -/
theorem formatN_zero_iff (w : Word) : w.extractLsb' 0 24 = 0 ↔ idxField w = 0 ∧ dataField w = 0 :=
  extractLsb'_eq_zero_iff (m := 8) (n := 16)

/-- The illegal words (30_encoding.md R85): no row has the opcode, or a must-be-zero bit of its format is set. -/
theorem decode_eq_error_iff (w : Word) :
    (∃ r, decode w = .error r) ↔
      (opField w).toNat = 0 ∨ 0x0A ≤ (opField w).toNat ∨
      ((opField w).toNat = 1 ∧ w.extractLsb' 9 15 ≠ 0) ∨
      ((opField w).toNat = 2 ∧ w.extractLsb' 8 8 ≠ 0) ∨
      ((opField w).toNat ∈ [3, 4, 6, 9] ∧ w.extractLsb' 0 24 ≠ 0) ∨
      ((opField w).toNat = 5 ∧ w.extractLsb' 16 8 ≠ 0) ∨
      ((opField w).toNat ∈ [7, 8] ∧ w.extractLsb' 0 16 ≠ 0) := by
  have hbyte : w.extractLsb' 8 8 = (dataField w).extractLsb' 8 8 := (extractLsb'_dataField w (by decide)).symm
  have hidx : w.extractLsb' 16 8 = idxField w := rfl
  have hdata : w.extractLsb' 0 16 = dataField w := rfl
  simp only [ne_eq, formatL_zero_iff, formatN_zero_iff, hbyte, hidx, hdata, decode]
  split
  case h_10 =>
    simp only [imp_false] at *
    have hreserved : (opField w).toNat = 0 ∨ 0x0A ≤ (opField w).toNat := by omega
    exact iff_of_true ⟨_, rfl⟩ (hreserved.imp_right .inl)
  -- the opcode of a row decides every alternative but the one on its own must-be-zero bits
  all_goals
    rename_i hop
    simp [acceptIf_eq_error_iff, hop]

end Sys2Proof

namespace Sys2Proof.Machine

/-- Executing an illegal word records IllegalCommand, code 3, and changes nothing else (60_exceptions.md R204). -/
theorem executeWord_of_decode_eq_error {w : Word} {r : Illegal} (h : decode w = .error r) (s : State) :
    executeWord w s = .next (s.recording 3) := by
  rw [executeWord, h]
  rfl

/-- Settles O4. -/
theorem illegalWordsAreRefusedWithIllegalCommand : Obligations.IllegalWordsAreRefusedWithIllegalCommand := fun w s =>
  ⟨decode_eq_error_iff w, fun ⟨_, hr⟩ => executeWord_of_decode_eq_error hr s⟩

/-! ### What the assembler emits (30_encoding.md R87) -/

theorem toInstr_eq_none_of_not_wf {t : Stmt} (h : t.wf = false) : t.toInstr = none := by
  simp [Stmt.toInstr, h]

@[simp] theorem toInstr_rd (r : Reg) : (Stmt.rd r).toInstr = none := rfl

@[simp] theorem toInstr_wr (r : Reg) (n : Nat) : (Stmt.wr r n).toInstr = none := by
  unfold Stmt.toInstr
  split <;> rfl

/-- A command statement is a CMD write of its command's word. -/
theorem stmtAccess_of_toInstr {t : Stmt} {i : Instr} (h : t.toInstr = some i) (base : Nat) :
    stmtAccess base t = some (.write base (lanesOfWord (encode i))) := by
  simp [stmtAccess, h, Reg.offset]

theorem emitsCommand_of_toInstr {t : Stmt} {i : Instr} (h : t.toInstr = some i) (base : Nat) :
    EmitsCommand base t i :=
  ⟨_, stmtAccess_of_toInstr h base, decodeLanes_lanesOfWord_encode i⟩

/-- An ill-formed statement emits nothing. -/
theorem stmtAccess_of_not_wf {t : Stmt} (h : t.wf = false) (base : Nat) : stmtAccess base t = none := by
  simp only [stmtAccess, toInstr_eq_none_of_not_wf h]
  cases t with
  | rd r => cases h
  | wr r n => simp [h]
  | setlen | keywr | init | next | proc | reset | keyrd | srd | clrerr => rfl

@[simp] theorem stmtAccess_rd (base : Nat) (r : Reg) : stmtAccess base (.rd r) = some (.read (base + r.offset) 4) := rfl

/-- A `WR` of a 32-bit value is a word write of it. -/
theorem stmtAccess_wr {n : Nat} (h : n < 2 ^ 32) (base : Nat) (r : Reg) :
    stmtAccess base (.wr r n) = some (.write (base + r.offset) (lanesOfWord (BitVec.ofNat 32 n))) := by
  have hwf : (Stmt.wr r n).wf = true := decide_eq_true h
  simp [stmtAccess, hwf]

theorem toInstr_setlen {n : Nat} (h : n ≤ 511) : (Stmt.setlen n).toInstr = some (.setlen (BitVec.ofNat 9 n)) :=
  if_pos (decide_eq_true h)

theorem toInstr_keywr {a b : Nat} (ha : a ≤ 255) (hb : b ≤ 255) :
    (Stmt.keywr a b).toInstr = some (.keywr (BitVec.ofNat 8 a) (BitVec.ofNat 8 b)) :=
  if_pos (by simp [Stmt.wf, ha, hb])

theorem toInstr_proc {n : Nat} (h : n ≤ 65535) : (Stmt.proc n).toInstr = some (.proc (BitVec.ofNat 16 n)) :=
  if_pos (decide_eq_true h)

theorem toInstr_keyrd {n : Nat} (h : n ≤ 255) : (Stmt.keyrd n).toInstr = some (.keyrd (BitVec.ofNat 8 n)) :=
  if_pos (decide_eq_true h)

theorem toInstr_srd {n : Nat} (h : n ≤ 255) : (Stmt.srd n).toInstr = some (.srd (BitVec.ofNat 8 n)) :=
  if_pos (decide_eq_true h)

/-- Settles O54. -/
theorem commandStatementsEmitTheirWord : Obligations.CommandStatementsEmitTheirWord := by
  intro base
  have hill (t : Stmt) (h : t.wf = false) : stmtAccess base t = none := stmtAccess_of_not_wf h base
  refine ⟨fun n h => emitsCommand_of_toInstr (toInstr_setlen h) base, fun n h => hill _ (by simpa [Stmt.wf] using h),
    fun a b ha hb => emitsCommand_of_toInstr (toInstr_keywr ha hb) base, fun a b h => hill _ ?keywr,
    emitsCommand_of_toInstr rfl base, emitsCommand_of_toInstr rfl base,
    fun n h => emitsCommand_of_toInstr (toInstr_proc h) base, fun n h => hill _ (by simpa [Stmt.wf] using h),
    emitsCommand_of_toInstr rfl base,
    fun n h => emitsCommand_of_toInstr (toInstr_keyrd h) base, fun n h => hill _ (by simpa [Stmt.wf] using h),
    fun n h => emitsCommand_of_toInstr (toInstr_srd h) base, fun n h => hill _ (by simpa [Stmt.wf] using h),
    emitsCommand_of_toInstr rfl base, fun p hp => ?access⟩
  case keywr =>
    simp only [Stmt.wf, Bool.and_eq_false_iff, decide_eq_false_iff_not]
    omega
  case access =>
    have hoffset : p.1.offset = p.2 := by
      revert p
      decide
    rw [← hoffset]
    refine ⟨rfl, fun n h => ⟨_, stmtAccess_wr h base p.1, ?_, rfl⟩, fun n h => hill _ (by simpa [Stmt.wf] using h)⟩
    rw [wordOfLanes_lanesOfWord, BitVec.toNat_ofNat, Nat.mod_eq_of_lt h]

/-! ### A run of commands on the bus (20_memory.md R57, R58) -/

/-- A host's CMD write of a command's word. -/
def commandEvent (host base : Nat) (i : Instr) : Event := .access host (.write base (lanesOfWord (encode i)))

/-- Statements that stand for commands emit the CMD writes of these, in order. -/
theorem hostEvents_of_toInstr {ts : List Stmt} {is : List Instr} (h : ts.map Stmt.toInstr = is.map some)
    (host base : Nat) : hostEvents host base ts = some (is.map (commandEvent host base)) := by
  induction ts generalizing is with
  | nil =>
    cases is with
    | nil => rfl
    | cons i is => cases h
  | cons t ts ih =>
    cases is with
    | nil => cases h
    | cons i is =>
      obtain ⟨hi, his⟩ := List.cons.inj h
      have hrest := ih his
      rw [hostEvents] at hrest ⊢
      rw [List.mapM_cons, hrest, stmtAccess_of_toInstr hi]
      rfl

/-- A step on a host's CMD write of a command executes the command on the engine and acknowledges the write. -/
theorem step_commandEvent {s : State} {host : Nat} {i : Instr} {rest : List Event}
    (hp : s.port = commandEvent host s.params.base i :: rest) (hh : host < s.params.nHosts) :
    step s = .next (((s.setPort rest).setEngine (s.engine.execute i)).respond host .written) := by
  rw [step_cmdWrite hp hh (lanesOfWord_length _), wordOfLanes_lanesOfWord, executeWord_eq_next, Engine.executeWord,
    decode_encode]
  rfl

/-- A run over a host's CMD writes executes their commands in order. -/
theorem run_commandEvents {s : State} {host : Nat} {is : List Instr} {rest : List Event}
    (hp : s.port = is.map (commandEvent host s.params.base) ++ rest) (hh : host < s.params.nHosts) :
    ∃ t : State, Host.Core.run core is.length s = .next t ∧ t.port = rest ∧
      t.engine = is.foldl Engine.execute s.engine := by
  induction is generalizing s with
  | nil => exact ⟨s, run_zero s, hp, rfl⟩
  | cons i is ih =>
    rw [List.length_cons, run_succ_of_step (step_commandEvent hp hh)]
    exact ih rfl hh

/-! ### Keying the engine (30_encoding.md R88, NEWKEY) -/

/-- The commands that stage the codes of a key, from entry 0 up. -/
def stagingCommands (codes : List Nat) : List Instr :=
  codes.mapIdx fun n c => .keywr (BitVec.ofNat 8 n) (BitVec.ofNat 8 c)

/-- The commands NEWKEY stands for. -/
def newkeyCommands (codes : List Nat) : List Instr :=
  .setlen (BitVec.ofNat 9 codes.length) :: stagingCommands codes ++ [.init]

theorem newkeyCommands_length (codes : List Nat) : (newkeyCommands codes).length = codes.length + 2 := by
  simp [newkeyCommands, stagingCommands]

theorem newkey_wf_iff (codes : List Nat) :
    (Pseudo.newkey codes).wf = true ↔ 1 ≤ codes.length ∧ codes.length ≤ 256 ∧ ∀ c ∈ codes, c ≤ 255 := by
  simp [Pseudo.wf, and_assoc]

/-- The statements of a well-formed NEWKEY stand for its commands. -/
theorem newkey_expand_toInstr {codes : List Nat} (hlen : codes.length ≤ 256) (hcodes : ∀ c ∈ codes, c ≤ 255) :
    (Pseudo.newkey codes).expand.map Stmt.toInstr = (newkeyCommands codes).map some := by
  have hkeywr : (codes.mapIdx Stmt.keywr).map Stmt.toInstr = (stagingCommands codes).map some := by
    refine List.ext_getElem (by simp [stagingCommands]) fun n hn _ => ?_
    have hn : n < codes.length := by simpa using hn
    have hkeywr := toInstr_keywr (show n ≤ 255 by omega) (hcodes _ (List.getElem_mem hn))
    simpa [stagingCommands] using hkeywr
  have hsetlen := toInstr_setlen (show codes.length ≤ 511 by omega)
  have hinit : Stmt.init.toInstr = some .init := rfl
  simp [Pseudo.expand, newkeyCommands, hsetlen, hkeywr, hinit]

/-- Staging commands write the codes below their number to the staging key, and nothing else of the engine. -/
theorem foldl_stagingCommands {codes : List Nat} (hlen : codes.length ≤ 256) (e : Engine) :
    ∃ KB : Table, (stagingCommands codes).foldl Engine.execute e = e.setKB KB ∧
      ∀ (n : Nat) (hn : n < codes.length), readEntry KB (BitVec.ofNat 8 n) = BitVec.ofNat 8 codes[n] := by
  induction codes using List.reverseRecOn with
  | nil => exact ⟨e.KB, rfl, nofun⟩
  | append_singleton codes c ih =>
    rw [List.length_append, List.length_singleton] at hlen
    obtain ⟨KB, hfold, hKB⟩ := ih (by omega)
    refine ⟨writeEntry KB (BitVec.ofNat 8 codes.length) (BitVec.ofNat 8 c), ?_, fun n hn => ?_⟩
    · rw [stagingCommands, List.mapIdx_concat, List.foldl_concat, ← stagingCommands, hfold]
      rfl
    · rw [List.length_append, List.length_singleton] at hn
      obtain hlt | rfl := Nat.lt_succ_iff_lt_or_eq.mp hn
      · have hne : BitVec.ofNat 8 n ≠ BitVec.ofNat 8 codes.length := fun h => by
          have hmod := congrArg BitVec.toNat h
          simp only [BitVec.toNat_ofNat] at hmod
          omega
        rw [readEntry_writeEntry_other KB _ hne, hKB n hlt, List.getElem_append_left hlt]
      · rw [readEntry_writeEntry_same, List.getElem_concat_length rfl]

theorem keyLength_toNat {n : Nat} (h : n ≤ 256) : (BitVec.ofNat 9 n).toNat = n := by
  rw [BitVec.toNat_ofNat, Nat.mod_eq_of_lt (by omega)]

theorem execute_of_failedCheck_eq_none {e : Engine} {i : Instr} (h : failedCheck i e = none) :
    e.execute i = e.act i := by
  rw [Engine.execute, h]
  rfl

/-- A length of 1 to 256 passes the checks of SETLEN and INIT, so NEWKEY's commands stage the codes and construct the
engine from them (40_initialize.md R100, R103). -/
theorem foldl_newkeyCommands {codes : List Nat} (hpos : 1 ≤ codes.length) (hlen : codes.length ≤ 256) (e : Engine) :
    ∃ KB : Table,
      (newkeyCommands codes).foldl Engine.execute e =
        ((e.setKBL (BitVec.ofNat 9 codes.length)).setKB KB).construct ∧
      ∀ (n : Nat) (hn : n < codes.length), readEntry KB (BitVec.ofNat 8 n) = BitVec.ofNat 8 codes[n] := by
  have hKBL := keyLength_toNat hlen
  have hsetlen : failedCheck (.setlen (BitVec.ofNat 9 codes.length)) e = none :=
    if_neg (by rw [lengthTooLong_eq_true_iff, hKBL]; omega)
  have hne : BitVec.ofNat 9 codes.length ≠ 0 := fun h => by
    have hzero : codes.length = 0 := hKBL.symm.trans (congrArg BitVec.toNat h)
    omega
  obtain ⟨KB, hfold, hKB⟩ := foldl_stagingCommands hlen (e.setKBL (BitVec.ofNat 9 codes.length))
  refine ⟨KB, ?_, hKB⟩
  rw [newkeyCommands, List.foldl_concat, List.foldl_cons, execute_of_failedCheck_eq_none hsetlen, Engine.act, hfold]
  exact execute_of_failedCheck_eq_none (if_neg hne)

/-- A well-formed NEWKEY emits the CMD writes of its commands, an ill-formed one nothing. -/
theorem pseudoEvents_newkey {host base : Nat} {codes : List Nat} {evs : List Event}
    (h : pseudoEvents host base (.newkey codes) = some evs) :
    (1 ≤ codes.length ∧ codes.length ≤ 256 ∧ ∀ c ∈ codes, c ≤ 255) ∧
      evs = (newkeyCommands codes).map (commandEvent host base) := by
  rw [pseudoEvents, Pseudo.assemble] at h
  split at h
  next hwf =>
    obtain ⟨hpos, hlen, hcodes⟩ := (newkey_wf_iff codes).mp hwf
    rw [Option.bind_some, hostEvents_of_toInstr (newkey_expand_toInstr hlen hcodes)] at h
    cases h
    exact ⟨⟨hpos, hlen, hcodes⟩, rfl⟩
  next => cases h

/-- Settles O51: NEWKEY's accesses are the CMD writes of its commands, and these construct the engine from the codes. -/
theorem newkeyKeysTheEngine : Obligations.NewkeyKeysTheEngine := by
  intro s h codes evs rest hh hevs hp
  obtain ⟨⟨hpos, hlen, hcodes⟩, rfl⟩ := pseudoEvents_newkey hevs
  obtain ⟨t, hrun, hport, ht⟩ := run_commandEvents hp hh
  obtain ⟨KB, hfold, hKB⟩ := foldl_newkeyCommands hpos hlen s.engine
  rw [hfold] at ht
  rw [newkeyCommands_length] at hrun
  refine ⟨t, hrun, hport, by simp [ht], by simpa [ht] using keyLength_toNat hlen, fun n hn => ?_, by simp [ht],
    by simp [ht], by simp [ht]⟩
  have hcode := hcodes _ (List.getElem_mem hn)
  rw [ht, Engine.construct_K, Engine.setKB_KB, hKB n hn, BitVec.toNat_ofNat, Nat.mod_eq_of_lt (by omega)]

end Sys2Proof.Machine

namespace Sys2Proof

/-! ### The words of the key-loading commands (30_encoding.md R80, R81) -/

/-- OP, IDX and DATA weigh 2^24, 2^16 and 1 in the command word (30_encoding.md R80). -/
theorem packWord_toNat (op idx : Byte) (data : U16) :
    (packWord op idx data).toNat = 2 ^ 24 * op.toNat + 2 ^ 16 * idx.toNat + data.toNat := by
  rw [packWord, BitVec.toNat_append, BitVec.toNat_append, ← Nat.shiftLeft_add_eq_or_of_lt idx.isLt,
    ← Nat.shiftLeft_add_eq_or_of_lt data.isLt]
  omega

/-- A number that is the weighted sum of three fields is their word. -/
theorem ofNat_eq_packWord {n : Nat} {op idx : Byte} {data : U16}
    (h : n = 2 ^ 24 * op.toNat + 2 ^ 16 * idx.toNat + data.toNat) : BitVec.ofNat 32 n = packWord op idx data := by
  rw [h, ← packWord_toNat, BitVec.ofNat_toNat, BitVec.setWidth_eq]

theorem ofNat_eq_encode_setlen (len : U9) : BitVec.ofNat 32 (0x01000000 + len.toNat) = encode (.setlen len) :=
  ofNat_eq_packWord (by rw [BitVec.toNat_setWidth_of_le (by decide)]; simp)

theorem ofNat_eq_encode_keywr (idx byte : Byte) :
    BitVec.ofNat 32 (0x02000000 + 2 ^ 16 * idx.toNat + byte.toNat) = encode (.keywr idx byte) :=
  ofNat_eq_packWord (by rw [BitVec.toNat_setWidth_of_le (by decide)]; simp)

/-- The one word of format N with a given opcode (30_encoding.md R81). -/
theorem formatN_zero_iff_eq_packWord (w : Word) : w.extractLsb' 0 24 = 0 ↔ w = packWord (opField w) 0 0 := by
  rw [formatN_zero_iff, word_eq_iff_fields]
  simp

end Sys2Proof

namespace Sys2Proof.Machine

/-! ### Executing a command and its word (60_exceptions.md R206; 20_memory.md R66) -/

theorem executeWord_encode (i : Instr) (s : State) : executeWord (encode i) s = exec i s := by
  rw [executeWord, decode_encode]

theorem exec_of_failedCheck_eq_none {i : Instr} {s : State} (h : failedCheck i s.engine = none) :
    exec i s = .next (s.setEngine (s.engine.act i)) := by
  rw [exec_eq_next, execute_of_failedCheck_eq_none h]

theorem exec_of_failedCheck_eq_some {i : Instr} {s : State} {err : CommandError}
    (h : failedCheck i s.engine = some err) : exec i s = .next (s.recording err.code) := by
  rw [exec_eq_next, Engine.execute, h]
  rfl

/-! ### Words with a must-be-zero bit set, by format (30_encoding.md R81, R85) -/

section Stray

variable {w : Word}

theorem executeWord_formatL_stray (hop : opField w = 0x01) (hstray : w.extractLsb' 9 15 ≠ 0) (s : State) :
    executeWord w s = .next (s.recording 3) := by
  obtain ⟨r, hr⟩ := (decode_eq_error_iff w).mpr (.inr (.inr (.inl ⟨congrArg BitVec.toNat hop, hstray⟩)))
  exact executeWord_of_decode_eq_error hr s

theorem executeWord_formatB_stray (hop : opField w = 0x02) (hstray : w.extractLsb' 8 8 ≠ 0) (s : State) :
    executeWord w s = .next (s.recording 3) := by
  obtain ⟨r, hr⟩ := (decode_eq_error_iff w).mpr (.inr (.inr (.inr (.inl ⟨congrArg BitVec.toNat hop, hstray⟩))))
  exact executeWord_of_decode_eq_error hr s

/-- A command of format N has one word: every other word of its opcode sets a must-be-zero bit. -/
theorem executeWord_formatN_stray (hop : (opField w).toNat ∈ [3, 4, 6, 9]) (hw : w ≠ packWord (opField w) 0 0)
    (s : State) : executeWord w s = .next (s.recording 3) := by
  have hstray : w.extractLsb' 0 24 ≠ 0 := (formatN_zero_iff_eq_packWord w).not.mpr hw
  obtain ⟨r, hr⟩ := (decode_eq_error_iff w).mpr (.inr (.inr (.inr (.inr (.inl ⟨hop, hstray⟩)))))
  exact executeWord_of_decode_eq_error hr s

end Stray

/-! ### Key loading (40_initialize.md R100, R101) -/

/-- Settles O7: the length check decides; the word is SETLEN's, and bits [23:9] are must-be-zero bits. -/
theorem setlenStoresTheStagingLength : Obligations.SetlenStoresTheStagingLength := by
  intro len s
  refine ⟨fun h => ?_, fun h => exec_of_failedCheck_eq_some (failedCheck_setlen h s.engine), ?_,
    fun w hop hstray => executeWord_formatL_stray hop hstray s⟩
  · have hcheck : failedCheck (.setlen len) s.engine = none := by simpa [failedCheck_eq_none_iff, needsKeyed] using h
    exact exec_of_failedCheck_eq_none hcheck
  · rw [ofNat_eq_encode_setlen, executeWord_encode]

/-- Settles O8: KEYWR has no check to fail; the word is KEYWR's, and bits [15:8] are must-be-zero bits. -/
theorem keywrWritesOneStagingCode : Obligations.KeywrWritesOneStagingCode := by
  intro idx byte s
  refine ⟨⟨writeEntry s.engine.KB idx byte, exec_of_failedCheck_eq_none rfl, readEntry_writeEntry _ idx byte⟩,
    ?_, fun w hop hstray => executeWord_formatB_stray hop hstray s⟩
  rw [ofNat_eq_encode_keywr, executeWord_encode]

/-! ### Initialization (40_initialize.md R103, R105) -/

/-- INIT with a staging key passes its one check and constructs the engine. -/
theorem exec_init_of_ne_zero {s : State} (h : s.engine.KBL ≠ 0) :
    exec .init s = .next (s.setEngine s.engine.construct) :=
  exec_of_failedCheck_eq_none (if_neg h)

/-- The writes of INIT for any generator, as one record update: the committed key, the generator and MODE. -/
theorem setKey_setGenerator_setMODE (e : Engine) (K : Table) (KL : U9) (g : Generator) (m : Mode) :
    ((e.setKey K KL).setGenerator g).setMODE m = { e with toGenerator := g, K := K, KL := KL, MODE := m } :=
  rfl

/-- Settles O9: the empty staging key fails INIT's check, any other is committed; the word of INIT is the only
legal one of its opcode. -/
theorem initConstructsTheEngine : Obligations.InitConstructsTheEngine := by
  intro s
  refine ⟨fun h => exec_of_failedCheck_eq_some (failedCheck_init h), fun h => ?_,
    executeWord_encode .init s, fun w hop hw => ?_⟩
  · rw [exec_init_of_ne_zero h, Engine.construct, setKey_setGenerator_setMODE]
    rfl
  · have hop : opField w = 0x03 := hop
    refine executeWord_formatN_stray (by simp [hop]) ?_ s
    rw [hop]
    exact hw

theorem keyLength_ne_zero {L : U9} (h : 1 ≤ L.toNat) : L ≠ 0 := by
  rintro rfl
  exact absurd h (by decide)

/-- Settles O29: INIT takes the generator from the key schedule of the staged key, which reads the codes below the
length only. -/
theorem initDependsOnlyOnTheStagedCodes : Obligations.InitDependsOnlyOnTheStagedCodes := by
  intro s s' t t' hpos _ hKBL hKB ht ht'
  have hne := keyLength_ne_zero hpos
  rw [exec_init_of_ne_zero hne] at ht
  rw [exec_init_of_ne_zero (hKBL ▸ hne)] at ht'
  obtain rfl := Host.Outcome.next.inj ht
  obtain rfl := Host.Outcome.next.inj ht'
  have hgen : keySchedule s'.engine.KB s.engine.KBL = keySchedule s.engine.KB s.engine.KBL := keySchedule_congr hKB
  exact ⟨by simp [hKBL, hgen], by simp, by simp⟩

/-! ### The key schedule (40_initialize.md R102, R105) -/

/-- What a swap leaves at each index, the first of the two indices read first. -/
theorem readEntry_swapEntries_first (t : Table) (a b n : Byte) :
    readEntry (swapEntries t a b) n =
      if n = a then readEntry t b else if n = b then readEntry t a else readEntry t n := by
  rw [readEntry_swapEntries_swap, Equiv.swap_apply_def, apply_ite (readEntry t), apply_ite (readEntry t)]

/-- Settles O24: the tables and accumulators are those after each number of iterations. -/
theorem keyScheduleFollowsItsRecurrence : Obligations.KeyScheduleFollowsItsRecurrence := by
  intro K L hpos _
  have hcode := extendedKey_of_ne_zero K (keyLength_ne_zero hpos)
  refine ⟨fun i => (scheduleRun (extendedKey K L) i).1, fun i => (scheduleRun (extendedKey K L) i).2,
    readEntry_identityTable, rfl, fun i _ => ?_, scheduleRun_isPermutation _ 256, rfl⟩
  beta_reduce
  rw [scheduleRun_succ, ← hcode]
  exact ⟨rfl, readEntry_swapEntries_first _ _ _⟩

/-- The first `n` iterations use the first `n` codes of the extended key. -/
theorem scheduleRun_congr {E E' : Nat → Byte} {n : Nat} (h : ∀ i < n, E i = E' i) :
    scheduleRun E n = scheduleRun E' n := by
  refine List.foldl_ext _ _ _ fun p i hi => ?_
  rw [scheduleIteration, h i (List.mem_range.mp hi), scheduleIteration]

/-- Settles O28: the schedule uses the first 256 codes of the extended key and nothing else of the key. -/
theorem equalExtensionsGiveTheSameSchedule : Obligations.EqualExtensionsGiveTheSameSchedule := by
  intro K K' L L' hpos _ hpos' _ h
  have hE : ∀ i < 256, extendedKey K L i = extendedKey K' L' i := fun i hi => by
    rw [extendedKey_of_ne_zero K (keyLength_ne_zero hpos), extendedKey_of_ne_zero K' (keyLength_ne_zero hpos'), h i hi]
  rw [keySchedule, scheduleRun_congr hE, keySchedule]

end Sys2Proof.Machine

namespace Sys2Proof

/-! ### The word of PROC (30_encoding.md R80, R81) -/

theorem ofNat_eq_encode_proc (unit : U16) : BitVec.ofNat 32 (0x05000000 + unit.toNat) = encode (.proc unit) :=
  ofNat_eq_packWord (by simp)

end Sys2Proof

namespace Sys2Proof.Machine

/-- PROC's bits [23:16] are must-be-zero bits (30_encoding.md R81, R85). -/
theorem executeWord_formatU_stray {w : Word} (hop : opField w = 0x05) (hstray : w.extractLsb' 16 8 ≠ 0) (s : State) :
    executeWord w s = .next (s.recording 3) := by
  obtain ⟨r, hr⟩ :=
    (decode_eq_error_iff w).mpr (.inr (.inr (.inr (.inr (.inr (.inl ⟨congrArg BitVec.toNat hop, hstray⟩))))))
  exact executeWord_of_decode_eq_error hr s

/-! ### One keystream step as a command: NEXT and PROC (41_keystream.md R130 to R132, R134, R139) -/

/-- The commands that need a key have no other check than the mode: SETLEN and INIT are not among them
(60_exceptions.md R202, R203, R205). -/
theorem failedCheck_keyed {i : Instr} {e : Engine} (hi : needsKeyed i = true) (h : e.MODE = .keyed) :
    failedCheck i e = none := by
  refine (failedCheck_eq_none_iff i e).mpr ⟨by simp [h], ?_, ?_⟩
  · rintro len rfl
    cases hi
  · rintro rfl
    cases hi

theorem exec_of_keyed {i : Instr} {s : State} (hi : needsKeyed i = true) (h : s.engine.MODE = .keyed) :
    exec i s = .next (s.setEngine (s.engine.act i)) :=
  exec_of_failedCheck_eq_none (failedCheck_keyed hi h)

theorem exec_of_uninit {i : Instr} {s : State} (hi : needsKeyed i = true) (h : s.engine.MODE = .uninit) :
    exec i s = .next (s.recording 2) :=
  exec_of_failedCheck_eq_some (failedCheck_uninit hi h)

/-- The entries a keystream step exchanges, and the ones it leaves (41_keystream.md R130). -/
theorem readEntry_step_S (g : Generator) (n : Byte) :
    readEntry g.step.S n =
      if n = g.I + 1 then readEntry g.S (g.J + readEntry g.S (g.I + 1))
      else if n = g.J + readEntry g.S (g.I + 1) then readEntry g.S (g.I + 1)
      else readEntry g.S n :=
  readEntry_swapEntries_first _ _ _ n

/-- The byte of a step, read from the new table at the new cursors (41_keystream.md R130, lines 4 and 5). -/
theorem stepByte_eq (g : Generator) :
    g.stepByte = readEntry g.step.S
      (readEntry g.step.S (g.I + 1) + readEntry g.step.S (g.J + readEntry g.S (g.I + 1))) :=
  rfl

/-- The writes of a keystream command, as one record update: the generator and RESULT. -/
theorem keystream_eq (f : U16 → U16) (e : Engine) :
    e.keystream f =
      { e with
        S := e.toGenerator.step.S, I := e.I + 1, J := e.J + readEntry e.S (e.I + 1)
        RESULT := f (e.toGenerator.stepByte.setWidth 16) } :=
  rfl

/-- Settles O10: while KEYED one step and its byte in RESULT; the word of NEXT is the only legal one of its opcode. -/
theorem nextTakesOneKeystreamStep : Obligations.NextTakesOneKeystreamStep := by
  intro s
  refine ⟨fun h => ⟨s.engine.toGenerator.step.S, readEntry_step_S _, ?_⟩, exec_of_uninit rfl,
    executeWord_encode .next s, fun w hop hw => ?_⟩
  · rw [exec_of_keyed rfl h, Engine.act, keystream_eq, stepByte_eq]
    rfl
  · have hop : opField w = 0x04 := hop
    refine executeWord_formatN_stray (by simp [hop]) ?_ s
    rw [hop]
    exact hw

/-- Settles O11: while KEYED one step, and the unit XOR its byte in RESULT; the word is PROC's, and bits [23:16] are
must-be-zero bits. -/
theorem procXorsTheUnitWithOneKeystreamByte : Obligations.ProcXorsTheUnitWithOneKeystreamByte := by
  intro unit s
  refine ⟨fun h => ⟨s.engine.toGenerator.step.S, readEntry_step_S _, ?_⟩, exec_of_uninit rfl, ?_,
    fun w hop hstray => executeWord_formatU_stray hop hstray s⟩
  · rw [exec_of_keyed rfl h, Engine.act, keystream_eq, stepByte_eq]
    rfl
  · rw [ofNat_eq_encode_proc, executeWord_encode]

theorem act_proc_RESULT (e : Engine) (unit : U16) :
    (e.act (.proc unit)).RESULT = unit ^^^ zext16 e.toGenerator.stepByte :=
  rfl

/-- PROC of the zero unit has the effect of NEXT (41_keystream.md R139). -/
theorem act_proc_zero (e : Engine) : e.act (.proc 0) = e.act .next := by
  simp [Engine.act]

/-- Settles O12: NEXT and PROC 0 have the same check and effect; the keystream byte has no high bits. -/
theorem procPassesTheHighByteAndMatchesNext : Obligations.ProcPassesTheHighByteAndMatchesNext := by
  intro unit s
  constructor
  · rw [exec_eq_next, exec_eq_next, Engine.execute, Engine.execute, act_proc_zero]
    rfl
  · intro h
    refine ⟨_, _, exec_of_keyed rfl h, exec_of_keyed rfl h, rfl, ?_, BitVec.extractLsb'_xor,
      extractLsb'_setWidth_byte _⟩
    rw [State.setEngine_engine, act_proc_RESULT, BitVec.extractLsb'_xor, zext16, extractLsb'_setWidth_byte]
    exact BitVec.xor_zero

/-! ### The key schedule and the keystream steps (41_keystream.md R137, R138) -/

/-- Settles O25. -/
theorem permutationIsMadeAndKept : Obligations.PermutationIsMadeAndKept :=
  ⟨keySchedule_isPermutation, fun _ => step_isPermutation⟩

/-- Each step adds 1 to `I`, modulo 256. -/
theorem steps_I (g : Generator) (n : Nat) : (g.steps n).I = g.I + BitVec.ofNat 8 n := by
  induction n with
  | zero => simp
  | succ n ih =>
    rw [Generator.steps_succ, Generator.step_I, ih, BitVec.ofNat_add, BitVec.add_assoc]
    rfl

/-- Settles O27: the schedule leaves `I` at 0. -/
theorem cursorICountsSteps : Obligations.CursorICountsSteps := by
  intro K L n
  simp [steps_I]

/-! ### PROCESS on the bus (30_encoding.md R88; 41_keystream.md R135, R136) -/

/-- `n + 1` steps, the first one taken first. -/
theorem steps_succ_eq_step_steps (g : Generator) (n : Nat) : g.steps (n + 1) = g.step.steps n := by
  induction n with
  | zero => rfl
  | succ n ih => rw [Generator.steps_succ, ih, Generator.steps_succ]

@[simp] theorem process_nil (g : Generator) : g.process [] = [] := rfl

@[simp] theorem process_cons (g : Generator) (u : U16) (us : List U16) :
    g.process (u :: us) = (u ^^^ zext16 g.stepByte) :: g.step.process us := rfl

@[simp] theorem process_length (g : Generator) (units : List U16) : (g.process units).length = units.length := by
  induction units generalizing g with
  | nil => rfl
  | cons u us ih => simp [ih]

/-- Processing twice from the same generator gives the units back: each is XORed twice with the same byte
(41_keystream.md R136). -/
theorem process_process (g : Generator) (units : List U16) : g.process (g.process units) = units := by
  induction units generalizing g with
  | nil => rfl
  | cons u us ih => rw [process_cons, process_cons, ih, BitVec.xor_assoc, BitVec.xor_self, BitVec.xor_zero]

/-- A host's word read of RESULT. -/
def resultRead (host base : Nat) : Event := .access host (.read (base + Reg.result.offset) 4)

/-- A host's accesses for PROCESS: for each unit the CMD write of its PROC and a read of RESULT. -/
def processEvents (host base : Nat) (units : List U16) : List Event :=
  units.flatMap fun u => [commandEvent host base (.proc u), resultRead host base]

theorem processEvents_cons (host base : Nat) (u : U16) (us : List U16) :
    processEvents host base (u :: us) =
      commandEvent host base (.proc u) :: resultRead host base :: processEvents host base us :=
  rfl

/-- The statement of a 16-bit unit is that of its PROC. -/
theorem toInstr_proc_toNat (u : U16) : (Stmt.proc u.toNat).toInstr = some (.proc u) := by
  rw [toInstr_proc (by omega), BitVec.ofNat_toNat, BitVec.setWidth_eq]

theorem process_wf (units : List U16) : (Pseudo.process (units.map BitVec.toNat)).wf = true := by
  refine List.all_eq_true.mpr fun n hn => ?_
  obtain ⟨u, -, rfl⟩ := List.mem_map.mp hn
  exact decide_eq_true (Nat.le_of_lt_succ u.isLt)

/-- A host's statements emit their accesses in order (20_memory.md R58). -/
theorem hostEvents_cons {host base : Nat} {t : Stmt} {ts : List Stmt} {a : Access} {evs : List Event}
    (ha : stmtAccess base t = some a) (hevs : hostEvents host base ts = some evs) :
    hostEvents host base (t :: ts) = some (.access host a :: evs) := by
  rw [hostEvents] at hevs ⊢
  rw [List.mapM_cons, ha, hevs]
  rfl

/-- PROCESS of 16-bit units is well formed and emits its accesses. -/
theorem pseudoEvents_process (host base : Nat) (units : List U16) :
    pseudoEvents host base (.process (units.map BitVec.toNat)) = some (processEvents host base units) := by
  rw [pseudoEvents, Pseudo.assemble, if_pos (process_wf units), Option.bind_some]
  induction units with
  | nil => rfl
  | cons u us ih =>
    exact hostEvents_cons (stmtAccess_of_toInstr (toInstr_proc_toNat u) base)
      (hostEvents_cons (stmtAccess_rd base .result) ih)

/-- The state after a unit's two accesses: PROC's effect, and its output answered after the acknowledgement. -/
def State.afterUnit (s : State) (host : Nat) (u : U16) (rest : List Event) : State :=
  { s with
    engine := s.engine.act (.proc u), port := rest
    responses := s.responses ++ processAnswers host [u ^^^ zext16 s.engine.toGenerator.stepByte] }

/-- Serving one unit's accesses on a KEYED engine: PROC is executed and acknowledged, and the read answers its output
(41_keystream.md R132). -/
theorem run_procUnit {s : State} {host : Nat} {u : U16} {rest : List Event} (hkeyed : s.engine.MODE = .keyed)
    (hh : host < s.params.nHosts)
    (hp : s.port = commandEvent host s.params.base (.proc u) :: resultRead host s.params.base :: rest) :
    Host.Core.run core 2 s = .next (s.afterUnit host u rest) := by
  have hproc := step_commandEvent hp hh
  rw [execute_of_failedCheck_eq_none (failedCheck_keyed rfl hkeyed)] at hproc
  refine (run_succ_of_step hproc 1).trans (run_succ_of_step ?_ 0)
  refine (admittedReadsAnswerTheRegister _ host 0x08 rest ?_ ?_ rfl (by decide)).trans ?_
  · rfl
  · exact hh
  · simp [State.afterUnit, processAnswers, readReg, act_proc_RESULT]

/-- A run over a host's accesses for PROCESS on a KEYED engine answers the outputs, advances the generator by one step
per unit and writes RESULT besides. -/
theorem run_processEvents {s : State} {host : Nat} {units : List U16} {rest : List Event}
    (hkeyed : s.engine.MODE = .keyed) (hh : host < s.params.nHosts)
    (hp : s.port = processEvents host s.params.base units ++ rest) :
    ∃ v : U16, Host.Core.run core (2 * units.length) s = .next
      { s with
        engine := { s.engine with toGenerator := s.engine.toGenerator.steps units.length, RESULT := v }
        port := rest
        responses := s.responses ++ processAnswers host (s.engine.toGenerator.process units) } := by
  induction units generalizing s with
  | nil =>
    obtain rfl : s.port = rest := hp
    exact ⟨s.engine.RESULT, by simp [processAnswers, run_zero]⟩
  | cons u us ih =>
    rw [processEvents_cons, List.cons_append, List.cons_append] at hp
    have hfirst := run_procUnit hkeyed hh hp
    obtain ⟨v, hrest⟩ := ih (s := s.afterUnit host u (processEvents host s.params.base us ++ rest)) hkeyed hh rfl
    refine ⟨v, ?_⟩
    rw [List.length_cons, Nat.mul_succ, Nat.add_comm, run_add hfirst, hrest]
    simp [State.afterUnit, processAnswers, steps_succ_eq_step_steps, Engine.act]

/-- Settles O52: PROCESS's accesses are PROC and a read of RESULT for each unit, served in order. -/
theorem processAnswersOneOutputPerUnit : Obligations.ProcessAnswersOneOutputPerUnit := by
  intro s h units evs rest hkeyed hh hevs hp
  obtain rfl := Option.some.inj ((pseudoEvents_process h s.params.base units).symm.trans hevs)
  obtain ⟨v, hrun⟩ := run_processEvents hkeyed hh hp
  exact ⟨_, hrun, rfl, rfl, process_length _ units, rfl⟩

/-- Settles O53: both engines take as many steps from the same generator, and processing twice gives the units back. -/
theorem processRoundTrip : Obligations.ProcessRoundTrip := by
  intro s s' h h' units hkeyed hkeyed' hgen hh hh'
  obtain ⟨v, hrun⟩ := run_processEvents (s := { s with port := processEvents h s.params.base units })
    (units := units) (rest := []) hkeyed hh (List.append_nil _).symm
  obtain ⟨v', hrun'⟩ := run_processEvents
    (s := { s' with port := processEvents h' s'.params.base (s.engine.toGenerator.process units) })
    (units := s.engine.toGenerator.process units) (rest := []) hkeyed' hh' (List.append_nil _).symm
  rw [process_length, ← hgen, process_process] at hrun'
  exact ⟨_, _, _, _, _, pseudoEvents_process _ _ _, hrun, rfl, pseudoEvents_process _ _ _, hrun', rfl, rfl⟩

end Sys2Proof.Machine

namespace Sys2Proof.Machine

/-! ### RESET (42_reset.md R160 to R162) -/

/-- The writes of RESET for any generator, as one record update. -/
theorem setGenerator_eq (e : Engine) (g : Generator) : e.setGenerator g = { e with toGenerator := g } := rfl

/-- While KEYED, RESET passes its one check and replaces the generator by the key schedule of the committed key. -/
theorem exec_reset_of_keyed {s : State} (h : s.engine.MODE = .keyed) :
    exec .reset s = .next
      { s with engine := { s.engine with toGenerator := keySchedule s.engine.K s.engine.KL } } := by
  rw [exec_of_keyed rfl h, Engine.act, Engine.rekey, setGenerator_eq]
  rfl

/-- Settles O13: RESET writes neither the committed key nor MODE and reads nothing else, so a second one, or one with
another staging key, schedules the same key; the word of RESET is the only legal one of its opcode. -/
theorem resetRekeysFromTheCommittedKey : Obligations.ResetRekeysFromTheCommittedKey := by
  intro s
  refine ⟨fun h => ⟨_, rfl, exec_reset_of_keyed h, exec_reset_of_keyed h, fun _ _ => exec_reset_of_keyed h⟩,
    exec_of_uninit rfl, executeWord_encode .reset s, fun w hop hw => ?_⟩
  have hop : opField w = 0x06 := hop
  refine executeWord_formatN_stray (by simp [hop]) ?_ s
  rw [hop]
  exact hw

/-! ### Undoing a keystream step (42_reset.md R161) -/

/-- After a swap the first index holds what the second one held, also when they are the same. -/
@[simp] theorem readEntry_swapEntries_left (t : Table) (a b : Byte) :
    readEntry (swapEntries t a b) a = readEntry t b := by
  rw [readEntry_swapEntries_swap, Equiv.swap_apply_left]

/-- After a swap the second index holds what the first one held. -/
@[simp] theorem readEntry_swapEntries_right (t : Table) (a b : Byte) :
    readEntry (swapEntries t a b) b = readEntry t a := by
  rw [readEntry_swapEntries_swap, Equiv.swap_apply_right]

/-- A step undone: after its exchange the entry at the new `J` is the one the step added to the old `J`. -/
theorem unstep_step (g : Generator) : g.step.unstep = g := by
  have hS : swapEntries g.step.S g.step.I g.step.J = g.S := swapEntries_swapEntries ..
  have hentry : readEntry g.step.S g.step.J = readEntry g.S (g.I + 1) := readEntry_swapEntries_right ..
  rw [Generator.unstep, hS, hentry, Generator.step_I, Generator.step_J, BitVec.add_sub_cancel, BitVec.add_sub_cancel]

/-- An undoing stepped again: after the exchange is undone the entry at `I` is the one the undoing subtracted from
`J`. -/
theorem step_unstep (g : Generator) : g.unstep.step = g := by
  have hI : g.unstep.I + 1 = g.I := BitVec.sub_add_cancel ..
  have hentry : readEntry g.unstep.S g.I = readEntry g.S g.J := readEntry_swapEntries_left ..
  have hJ : g.unstep.J + readEntry g.S g.J = g.J := BitVec.sub_add_cancel ..
  have hS : swapEntries g.unstep.S g.I g.J = g.S := swapEntries_swapEntries ..
  rw [Generator.step, hI, hentry, hJ, hS]

/-- Settles O26. -/
theorem keystreamStepIsInvertible : Obligations.KeystreamStepIsInvertible := fun g =>
  ⟨unstep_step g, step_unstep g⟩

/-! ### RESET after INIT (42_reset.md R161; 10_state.md R25) -/

/-- A run that serves no power-on reset and no successful INIT keeps the committed key and the mode. -/
theorem run_keeps_committedKey {s t : State} {k : Nat}
    (hkeep : ∀ (j : Nat) (u : State), j < k → Host.Core.run core j s = .next u → u.NextKeepsKey)
    (h : Host.Core.run core k s = .next t) :
    t.engine.K = s.engine.K ∧ t.engine.KL = s.engine.KL ∧ t.engine.MODE = s.engine.MODE := by
  induction k generalizing s with
  | zero =>
    rw [run_zero] at h
    cases h
    exact ⟨rfl, rfl, rfl⟩
  | succ k ih =>
    obtain ⟨u, hu, h⟩ := run_succ_eq_next h
    obtain ⟨hK, hKL, hMODE⟩ := stepKeepsTheCommittedKey s u (hkeep 0 s k.succ_pos (run_zero s)) hu
    obtain ⟨hK', hKL', hMODE'⟩ := ih
      (fun j v hj hv => hkeep (j + 1) v (Nat.succ_lt_succ hj) ((run_succ_of_step hu j).trans hv)) h
    exact ⟨hK'.trans hK, hKL'.trans hKL, hMODE'.trans hMODE⟩

/-- A successful INIT leaves the engine KEYED, its generator the key schedule of the key it has committed
(40_initialize.md R103). -/
theorem exec_init_schedules_committedKey {s t : State} (hKBL : s.engine.KBL ≠ 0) (h : exec .init s = .next t) :
    t.engine.MODE = .keyed ∧ t.engine.toGenerator = keySchedule t.engine.K t.engine.KL := by
  rw [exec_init_of_ne_zero hKBL] at h
  obtain rfl := Host.Outcome.next.inj h
  simp

/-- Settles O50: INIT leaves the schedule of the key it commits, the run keeps that key, and RESET schedules it again. -/
theorem resetRestoresTheStateAfterInit : Obligations.ResetRestoresTheStateAfterInit := by
  intro s t₀ t k hKBL hinit hkeep hrun
  obtain ⟨hkeyed, hschedule⟩ := exec_init_schedules_committedKey hKBL hinit
  obtain ⟨hK, hKL, hMODE⟩ := run_keeps_committedKey hkeep hrun
  refine ⟨_, exec_reset_of_keyed (hMODE.trans hkeyed), ?_, hK, hKL⟩
  rw [hschedule, ← hK, ← hKL]

end Sys2Proof.Machine

namespace Sys2Proof

/-! ### The words of KEYRD and SRD (30_encoding.md R80, R81) -/

theorem ofNat_eq_encode_keyrd (idx : Byte) :
    BitVec.ofNat 32 (0x07000000 + 2 ^ 16 * idx.toNat) = encode (.keyrd idx) :=
  ofNat_eq_packWord (by simp)

theorem ofNat_eq_encode_srd (idx : Byte) :
    BitVec.ofNat 32 (0x08000000 + 2 ^ 16 * idx.toNat) = encode (.srd idx) :=
  ofNat_eq_packWord (by simp)

end Sys2Proof

namespace Sys2Proof.Machine

/-! ### Inspection and control: KEYRD, SRD and CLRERR (43_inspect_control.md R170 to R172) -/

/-- In format X, the format of KEYRD and SRD, bits [15:0] are must-be-zero bits (30_encoding.md R81, R85). -/
theorem executeWord_formatX_stray {w : Word} (hop : (opField w).toNat ∈ [7, 8]) (hstray : w.extractLsb' 0 16 ≠ 0)
    (s : State) : executeWord w s = .next (s.recording 3) := by
  obtain ⟨r, hr⟩ := (decode_eq_error_iff w).mpr (.inr (.inr (.inr (.inr (.inr (.inr ⟨hop, hstray⟩))))))
  exact executeWord_of_decode_eq_error hr s

theorem shownKeyCode_of_lt {KL : U9} {idx : Byte} (h : idx.toNat < KL.toNat) (K : Table) :
    shownKeyCode K KL idx = readEntry K idx :=
  if_pos h

theorem shownKeyCode_of_le {KL : U9} {idx : Byte} (h : KL.toNat ≤ idx.toNat) (K : Table) :
    shownKeyCode K KL idx = 0 :=
  if_neg (Nat.not_lt.mpr h)

/-- While KEYED, KEYRD passes its one check and writes the code it shows to RESULT. -/
theorem exec_keyrd_of_keyed {s : State} (h : s.engine.MODE = .keyed) (idx : Byte) :
    exec (.keyrd idx) s =
      .next (s.setEngine (s.engine.setRESULT (zext16 (shownKeyCode s.engine.K s.engine.KL idx)))) :=
  exec_of_keyed rfl h

/-- Settles O14: the committed length decides which code KEYRD shows; the word is KEYRD's, and bits [15:0] are
must-be-zero bits. -/
theorem keyrdReadsTheCommittedKey : Obligations.KeyrdReadsTheCommittedKey := by
  intro idx s
  refine ⟨fun h hlt => ?_, fun h hle => ?_, exec_of_uninit rfl, ?_, fun w hop hstray => ?_⟩
  · rw [exec_keyrd_of_keyed h, shownKeyCode_of_lt hlt]
    rfl
  · rw [exec_keyrd_of_keyed h, shownKeyCode_of_le hle]
    rfl
  · rw [ofNat_eq_encode_keyrd, executeWord_encode]
  · exact executeWord_formatX_stray (by simp [opField, hop]) hstray s

/-- While KEYED, SRD passes its one check and writes the permutation entry to RESULT. -/
theorem exec_srd_of_keyed {s : State} (h : s.engine.MODE = .keyed) (idx : Byte) :
    exec (.srd idx) s = .next (s.setEngine (s.engine.setRESULT (zext16 (readEntry s.engine.S idx)))) :=
  exec_of_keyed rfl h

/-- Zero extension keeps the low byte (00_scope.md R8). -/
theorem zext16_injective : Function.Injective zext16 :=
  Function.LeftInverse.injective (g := BitVec.setWidth 8) fun _ => BitVec.setWidth_setWidth_of_le _ (by decide)

/-- While KEYED, the RESULT of SRD at an index is a byte exactly where the entry is that byte. -/
theorem exec_srd_RESULT_iff {s : State} (h : s.engine.MODE = .keyed) (n v : Byte) :
    (∃ t, exec (.srd n) s = .next t ∧ t.engine.RESULT = zext16 v) ↔ readEntry s.engine.S n = v := by
  simp [exec_srd_of_keyed h, zext16_injective.eq_iff]

/-- Settles O15: SRD's results are the entries zero-extended, so they take each value as often as the entries do; the
word is SRD's, and bits [15:0] are must-be-zero bits. -/
theorem srdReadsOnePermutationEntry : Obligations.SrdReadsOnePermutationEntry := by
  intro idx s
  refine ⟨fun h => exec_srd_of_keyed h idx, fun h hperm v => ?_, exec_of_uninit rfl, ?_, fun w hop hstray => ?_⟩
  · exact (existsUnique_congr fun n => exec_srd_RESULT_iff h n v).mpr (hperm v)
  · rw [ofNat_eq_encode_srd, executeWord_encode]
  · exact executeWord_formatX_stray (by simp [opField, hop]) hstray s

/-- Settles O16: CLRERR has no check to fail, in either mode; its word is the only legal one of its opcode. -/
theorem clrerrClearsTheErrorStatus : Obligations.ClrerrClearsTheErrorStatus := by
  intro s
  refine ⟨exec_of_failedCheck_eq_none rfl, executeWord_encode .clrerr s, fun w hop hw => ?_⟩
  have hop : opField w = 0x09 := hop
  refine executeWord_formatN_stray (by simp [hop]) ?_ s
  rw [hop]
  exact hw

end Sys2Proof.Machine

namespace Sys2Proof.Machine

/-! ### Completion, the mode check and the order of the checks (60_exceptions.md R200, R203, R206, R210) -/

/-- Settles O17: the outcome of a command is a next state with a new engine in it. -/
theorem everyCommandCompletes : Obligations.EveryCommandCompletes := exec_writes_only_engine

/-- Four commands run without a key (30_encoding.md R82, last column). -/
theorem needsKeyed_eq_true_iff (i : Instr) :
    needsKeyed i = true ↔
      (∀ len, i ≠ .setlen len) ∧ (∀ idx byte, i ≠ .keywr idx byte) ∧ i ≠ .init ∧ i ≠ .clrerr := by
  cases i <;> simp [needsKeyed]

/-- Settles O23: the commands that are none of the four need a key, and fail the mode check. -/
theorem beforeTheFirstKeyOnlyFourCommandsAct : Obligations.BeforeTheFirstKeyOnlyFourCommandsAct :=
  fun i _ hm hsetlen hkeywr hinit hclrerr =>
    exec_of_uninit ((needsKeyed_eq_true_iff i).mpr ⟨hsetlen, hkeywr, hinit, hclrerr⟩) hm

/-- Settles O18: an illegal word is refused before any other check; a legal one is its command's, which fails one check
of its own or has its effect, and no effect but CLRERR's writes ERR. -/
theorem errorPriorityIsDecodeModeOperand : Obligations.ErrorPriorityIsDecodeModeOperand := by
  intro w s
  refine ⟨fun r hr => executeWord_of_decode_eq_error hr s, fun i hi => ?_⟩
  obtain rfl : encode i = w := encode_of_decode hi
  rw [executeWord_encode]
  refine ⟨exec_of_uninit, ?_, ?_, fun hkeyed hlen hinit hclrerr => ?_⟩
  · rintro len rfl hlong
    exact exec_of_failedCheck_eq_some (failedCheck_setlen hlong s.engine)
  · rintro rfl hKBL
    exact exec_of_failedCheck_eq_some (failedCheck_init hKBL)
  · have hcheck : failedCheck i s.engine = none := (failedCheck_eq_none_iff i _).mpr ⟨hkeyed, hlen, hinit⟩
    exact ⟨_, exec_of_failedCheck_eq_none hcheck, act_ERR s.engine hclrerr⟩

/-! ### Recording an error (60_exceptions.md R201, R208) -/

theorem record_of_ERR_eq_zero {e : Engine} (h : e.ERR = 0) (err : CommandError) : e.record err = e.setERR err.code := by
  rw [Engine.record, h, recordError_zero]

/-- An engine that holds an error records no other. -/
theorem record_of_ERR_ne_zero {e : Engine} (h : e.ERR ≠ 0) (err : CommandError) : e.record err = e := by
  rw [Engine.record, recordError_of_ne_zero h]
  rfl

/-- Settles O19. -/
theorem raiseRecordsTheFirstErrorCode : Obligations.RaiseRecordsTheFirstErrorCode := by
  refine ⟨rfl, rfl, rfl, rfl, fun err s => ⟨fun h => ?_, fun h => ?_, raise_eq_next err s⟩⟩
  · rw [raise_eq_next, record_of_ERR_eq_zero h]
    rfl
  · rw [raise_eq_next, record_of_ERR_ne_zero h]
    rfl

/-! ### No check and no effect reads ERR (60_exceptions.md R210) -/

@[simp] theorem failedCheck_setERR (i : Instr) (e : Engine) (c : BitVec 4) :
    failedCheck i (e.setERR c) = failedCheck i e := by
  cases i <;> rfl

/-- An effect carries the other value in ERR along; CLRERR writes 0 over both. -/
theorem act_setERR (i : Instr) (e : Engine) (c : BitVec 4) :
    ∃ c', (e.setERR c).act i = (e.act i).setERR c' := by
  cases i with
  | clrerr => exact ⟨0, rfl⟩
  | setlen | keywr | init | next | proc | reset | keyrd | srd => exact ⟨c, rfl⟩

/-- With another value in ERR, a command fails the same check or has the same effect, up to ERR. -/
theorem execute_setERR (i : Instr) (e : Engine) (c : BitVec 4) :
    ∃ c', (e.setERR c).execute i = (e.execute i).setERR c' := by
  simp only [Engine.execute, failedCheck_setERR]
  cases failedCheck i e with
  | none => exact act_setERR i e c
  | some err => exact ⟨recordError c err.code, rfl⟩

/-- Settles O21. -/
theorem errorsDoNotBlockCommands : Obligations.ErrorsDoNotBlockCommands := by
  intro i s t c h
  rw [exec_eq_next] at h
  cases h
  obtain ⟨c', hc'⟩ := execute_setERR i s.engine c
  refine ⟨c', (exec_eq_next i (s.setEngine (s.engine.setERR c))).trans ?_⟩
  rw [State.setEngine_engine, hc']
  rfl

/-! ### What a step does to a recorded error (60_exceptions.md R209) -/

/-- A recorded error outlasts every word but that of CLRERR, INIT's and RESET's among them. -/
theorem executeWord_ERR_of_ne_zero {e : Engine} {w : Word} (h : e.ERR ≠ 0) (hw : w ≠ encode .clrerr) :
    (e.executeWord w).ERR = e.ERR := by
  unfold Engine.executeWord
  cases hdecode : decode w with
  | error r => exact congrArg Engine.ERR (record_of_ERR_ne_zero h .illegalCommand)
  | ok i =>
    have hclrerr : i ≠ .clrerr := fun hi => hw (hi ▸ (encode_of_decode hdecode).symm)
    obtain ⟨err, -, he⟩ | ⟨-, he⟩ := execute_cases e i <;> simp only [he]
    · rw [record_of_ERR_ne_zero h]
    · exact act_ERR e hclrerr

/-- The word of CLRERR leaves no error. -/
theorem executeWord_encode_clrerr_ERR (e : Engine) : (e.executeWord (encode .clrerr)).ERR = 0 := by
  rw [Engine.executeWord, decode_encode]
  rfl

/-- An event that executes no word and is no power-on reset keeps the key. -/
theorem keepsKey_of_commandWord_eq_none {ev : Event} {s : State} (hw : ev.commandWord s.params.base = none)
    (hpor : ev ≠ .powerOnReset) (hreset : ∀ h w, ev ≠ .resetDuringCommand h w) : ev.keepsKey s := by
  have hinit : ev.commandWord s.params.base ≠ some (encode .init) := by simp [hw]
  cases ev with
  | access | timedOutCommand => exact ⟨trivial, fun h => absurd h hinit⟩
  | resetDuringCommand host w => exact absurd rfl (hreset host w)
  | powerOnReset => exact absurd rfl hpor

section ServedEvent

variable {s t : State} {ev : Event} {rest : List Event}

/-- A step that goes on from a host's access served a host of the block (log entry 7). -/
theorem host_lt_of_step_access {host : Nat} {a : Access} (hp : s.port = .access host a :: rest)
    (h : step s = .next t) : host < s.params.nHosts := by
  rw [step_cons hp] at h
  obtain ⟨hlt, -⟩ := (fromHost_eq_next_iff _ _ _ _).mp h
  exact hlt

/-- A step on an event that carries a command word executes it (20_memory.md R66; 70_reset_and_hazards.md R240). -/
theorem step_engine_of_commandWord {w : Word} (hp : s.port = ev :: rest)
    (hw : ev.commandWord s.params.base = some w) (h : step s = .next t) : t.engine = s.engine.executeWord w := by
  cases ev with
  | access host a =>
    cases a with
    | read addr n => cases hw
    | write addr lanes =>
      obtain ⟨⟨rfl, hlen⟩, rfl⟩ : (addr = s.params.base ∧ lanes.length = 4) ∧ wordOfLanes lanes = w := by
        simpa [Event.commandWord] using hw
      rw [step_cmdWrite hp (host_lt_of_step_access hp h) hlen, executeWord_eq_next] at h
      cases h
      rfl
  | timedOutCommand host w' =>
    cases hw
    rw [step_cons hp] at h
    obtain ⟨-, h⟩ := (fromHost_eq_next_iff _ _ _ _).mp h
    rw [executeWord_eq_next] at h
    cases h
    rfl
  | resetDuringCommand host w' => cases hw
  | powerOnReset => cases hw

/-- A step on an event that carries no command word and is no power-on reset leaves the engine. -/
theorem step_engine_of_commandWord_eq_none (hp : s.port = ev :: rest) (hw : ev.commandWord s.params.base = none)
    (hpor : ev ≠ .powerOnReset) (hreset : ∀ h w, ev ≠ .resetDuringCommand h w) (h : step s = .next t) :
    t.engine = s.engine := by
  obtain he | ⟨ev', hev', w, hw', -⟩ | ⟨hkeep, -⟩ := step_engine_cases h
  · exact he
  · obtain rfl : ev = ev' := by simpa [hp] using hev'
    cases hw.symm.trans hw'
  · exact absurd ((nextKeepsKey_cons hp).mpr (keepsKey_of_commandWord_eq_none hw hpor hreset)) hkeep

/-- A power-on reset, between accesses or during a command, leaves a power-on engine (70_reset_and_hazards.md R230,
R231). -/
theorem step_isPorState (hp : s.port = ev :: rest) (hev : ev = .powerOnReset ∨ ∃ h w, ev = .resetDuringCommand h w)
    (h : step s = .next t) : t.engine.IsPorState := by
  rw [step_cons hp] at h
  obtain rfl | ⟨host, w, rfl⟩ := hev
  · cases h
    exact ⟨_, _, rfl⟩
  · obtain ⟨-, h⟩ := (fromHost_eq_next_iff _ _ _ _).mp h
    cases h
    exact ⟨_, _, rfl⟩

end ServedEvent

/-- No error is recorded in a power-on engine (10_state.md R42). -/
theorem Engine.IsPorState.ERR_eq_zero {e : Engine} (h : e.IsPorState) : e.ERR = 0 := by
  obtain ⟨S, K, rfl⟩ := h
  exact Engine.afterPor_ERR S K

/-- Settles O20: a power-on reset leaves no error; a command word keeps a recorded one unless it is CLRERR's; every
other event leaves the engine. -/
theorem firstErrorIsSticky : Obligations.FirstErrorIsSticky := by
  intro s t ev rest hp hERR h
  refine ⟨fun hclears => ?_, fun hclrerr hpor hreset => ?_⟩
  · obtain hw | hev := hclears
    · rw [step_engine_of_commandWord hp hw h]
      exact executeWord_encode_clrerr_ERR s.engine
    · exact (step_isPorState hp hev h).ERR_eq_zero
  · cases hw : ev.commandWord s.params.base with
    | none => rw [step_engine_of_commandWord_eq_none hp hw hpor hreset h]
    | some w =>
      rw [step_engine_of_commandWord hp hw h]
      exact executeWord_ERR_of_ne_zero hERR fun hclr => hclrerr (hw.trans (congrArg some hclr))

/-! ### One access level (60_exceptions.md R217) -/

/-- The host of an access decides who is answered and nothing else. -/
theorem serveAccess_host_only_answered (a : Access) (s : State) :
    ∃ (u : State) (ans : Answer), ∀ host, serveAccess host a s = .next (u.respond host ans) := by
  cases a with
  | read addr n => exact ⟨s, readAnswer s addr n, fun _ => rfl⟩
  | write addr lanes =>
    simp only [serveAccess, serveWrite]
    cases windowOffset s.params.base addr with
    | none => exact ⟨s, .notDecoded, fun _ => rfl⟩
    | some off =>
      cases hadm : admitted off lanes.length with
      | false => exact ⟨s, .busError, fun _ => by simp [hadm]⟩
      | true =>
        obtain ⟨e, he⟩ := writeReg_writes_only_engine off (wordOfLanes lanes) s
        exact ⟨s.setEngine e, .written, fun _ => by simp [hadm, he, answered]⟩

/-- Settles O39. -/
theorem everyHostHasTheSameEffect : Obligations.EveryHostHasTheSameEffect := by
  intro s t host host' a rest hlt h
  obtain ⟨u, ans, hserve⟩ := serveAccess_host_only_answered a (s.setPort rest)
  rw [step_access rfl (host_lt_of_step_access rfl h)] at h
  obtain rfl : u.respond host ans = t := Host.Outcome.next.inj ((hserve host).symm.trans h)
  refine ⟨u.respond host' ans, ?_, rfl⟩
  exact (step_access (s := s.setPort (.access host' a :: rest)) rfl hlt).trans (hserve host')

end Sys2Proof.Machine

namespace Sys2Proof.Machine

/-! ### A command that the platform or power-on reset cuts short (70_reset_and_hazards.md R231, R240) -/

section CommandWord

variable {s : State} {h : Nat} {w : Word} {rest : List Event}

/-- A step on a CMD write served normally executes its word on the engine and answers `written`. -/
theorem step_cmdWrite_eq_next (hp : s.port = .access h (.write s.params.base (lanesOfWord w)) :: rest)
    (hh : h < s.params.nHosts) :
    step s = .next (((s.setPort rest).setEngine (s.engine.executeWord w)).respond h .written) := by
  rw [step_cmdWrite hp hh (lanesOfWord_length w), wordOfLanes_lanesOfWord, executeWord_eq_next]
  rfl

/-- A step on a timed-out CMD write executes its word on the engine and answers `timedOut`. -/
theorem step_timedOutCommand_eq_next (hp : s.port = .timedOutCommand h w :: rest) (hh : h < s.params.nHosts) :
    step s = .next (((s.setPort rest).setEngine (s.engine.executeWord w)).respond h .timedOut) := by
  rw [step_timedOutCommand hp hh, executeWord_eq_next]
  rfl

end CommandWord

/-- Settles O40: the timed-out CMD write and the one served normally execute the same word on the same engine; the
answers differ. -/
theorem timedOutCommandsStillExecute : Obligations.TimedOutCommandsStillExecute := fun _ _ _ _ hp hh =>
  ⟨_, _, step_timedOutCommand_eq_next hp hh, step_cmdWrite_eq_next rfl hh, rfl, rfl, rfl⟩

/-- Settles O43: the engine after the step is a power-on one, whatever the command and the engine before it, and any two
power-on engines are indistinguishable. -/
theorem powerOnResetAbandonsTheCommand : Obligations.PowerOnResetAbandonsTheCommand := by
  intro s h w rest hp hh
  refine ⟨_, step_resetDuringCommand hp hh, ⟨_, _, rfl⟩, rfl, rfl, fun w' e => ?_⟩
  exact ⟨_, step_resetDuringCommand rfl hh, afterPor_indistinguishable _ _ _ _⟩

end Sys2Proof.Machine
